-- ==== Sys2Proof/Word.lean ====
section
/-! DEFINITION. Word.lean: the bit-vector widths of the register window (00_scope.md R8, 20_memory.md R35, R37). -/
namespace Sys2Proof

/-- One byte of a byte-array register (00_scope.md R9). -/
abbrev Byte := BitVec 8

/-- One 32-bit word: what every admitted access moves (20_memory.md R37). -/
abbrev Word := BitVec 32

/-- A 12-bit byte offset into the 4096-byte register window (20_memory.md R35). -/
abbrev Offset := BitVec 12

end Sys2Proof
end

