-- ==== Sys2Proof/Config.lean ====
section
/-! DEFINITION. Config.lean: what one build of the block fixes (00_scope.md R6, R7) and what the spec leaves open.
An opaque constant without a body stands for every value the spec admits: nothing can evaluate it or prove a value of it. -/
namespace Sys2Proof

/-- The one build-time option: 1024-bit or 2048-bit keys (00_scope.md R3). No other build is legal (R7). -/
inductive KeySize where
  | bits1024
  | bits2048
  deriving DecidableEq, Repr

/-- What a build fixes and the ID register shows (10_state.md R21): the key size and AUX_WORDS, 0 to 256 (00_scope.md R6). -/
structure Build where
  keySize  : KeySize
  auxWords : Fin 257
  deriving DecidableEq, Repr

/-- NUMBYTES, the modulus byte width (00_scope.md R3, R6). -/
def Build.numBytes (b : Build) : Nat :=
  match b.keySize with
  | .bits1024 => 128
  | .bits2048 => 256

/-- K, the modulus bit width (00_scope.md R6). -/
def Build.modulusBits (b : Build) : Nat := 8 * b.numBytes

/-- NWORDS, the 32-bit words of a big register (00_scope.md R6). -/
def Build.nwords (b : Build) : Nat := b.numBytes / 4

/-- PS_LEN, the length of the padding string (00_scope.md R6, 42_validate.md R85). -/
def Build.psLen (b : Build) : Nat := b.numBytes - 54

/-- The build whose reset state `State.reset` is: NUMBYTES 128 and AUX_WORDS 0, the start state of the spec's own
vectors and programs (95_test_vectors.md L2, L3). DESIGN CHOICE, unsafe for a claim about `State.reset` alone; every
statement of this package that is about reset ranges over every build (log entry 2). -/
def Build.reference : Build := ⟨.bits1024, 0⟩

/-- OPEN (40_modmul.md R70, 93_implementation_defined.md U3): which further pairs of a modulus and AUX contents an
implementation's AuxValid admits. Safe: left free (log entry 3). -/
opaque Config.auxAdmits : Build → Nat → List Word → Bool

/-- OPEN (40_modmul.md R70, 92_eei_decisions.md D27): word k of the AUX contents the implementation documents for the
modulus n. Safe: left free (log entry 3). -/
opaque Config.auxWord : Build → Nat → Nat → Word

/-- How the platform drives rst (70_reset_and_hazards.md R116). -/
inductive ResetKind where
  | synchronous
  | asynchronous
  deriving DecidableEq, Repr, Inhabited

/-- OPEN (20_memory.md R35, U7): BASE is 4096 times this number. No rule of the block reads it (log entry 14). -/
opaque Config.basePage : Nat

/-- BASE, the platform's address of offset 0 of the window, a multiple of 4096 (20_memory.md R35). -/
def Config.base : Nat := 4096 * Config.basePage

/-- OPEN (60_exceptions.md R106, U8): the platform's line for irq. No rule of the block reads it (log entry 14). -/
opaque Config.irqLine : Nat

/-- OPEN (70_reset_and_hazards.md R116, U9): RST_KIND. No rule of the block reads it (log entry 14). -/
opaque Config.resetKind : ResetKind

end Sys2Proof
end

