-- ==== Sys2Proof/Syntax.lean ====
section
/-! DEFINITION. Syntax.lean: the instructions, the five commands of spec/opcode_table.json (30_encoding.md R57).
A command has no operand in its word: every operand is a fixed register (30_encoding.md R56). -/
namespace Sys2Proof

/-- The five commands a host writes to CMD (00_scope.md R2, 30_encoding.md R57). -/
inductive Instr where
  /-- MODMUL, 40_modmul.md R74 -/
  | modmul
  /-- MODEXP, 41_modexp.md R83 -/
  | modexp
  /-- VALIDATE, 42_validate.md R93 -/
  | validate
  /-- VERIFY, 43_verify.md R97 -/
  | verify
  /-- SRST, 44_system.md R99 -/
  | srst
  deriving DecidableEq, Repr

end Sys2Proof
end

