-- ==== Sys2Proof/Machine/State.lean ====
section
/-! DEFINITION. Machine/State.lean: every piece of state the spec gives the block (10_state.md R13), and the two fields of
the model's own that stand for its two agents' interleaving and for what the host's latest access was answered. -/
namespace Sys2Proof.Machine

/-- The value of STATUS.ERRCODE. Codes 3 to 15 are never produced (60_exceptions.md R100, U13). -/
inductive ErrCode where
  | none
  | invalidExponent
  | illegalCommand
  deriving DecidableEq, Repr

/-- STATUS, offset 0x008; bits 31:9 are reserved and have no storage (10_state.md R23). -/
structure Status where
  /-- bit 0, RO: 1 while ENGINE = RUN(job) -/
  busy    : Bool
  /-- bit 1, W1C: the last accepted command has finished -/
  done    : Bool
  /-- bit 2, RO: the result of the last completed VALIDATE or VERIFY -/
  verdict : Bool
  /-- bit 3, RO: the last accepted command was rejected -/
  err     : Bool
  /-- bits 7:4, RO: why -/
  errCode : ErrCode
  /-- bit 8, W1C: a CMD write was dropped because the engine was busy -/
  ovr     : Bool
  deriving DecidableEq, Repr

/-- The commands that form a job: every command but SRST (10_state.md R30). -/
inductive JobOp where
  | modmul
  | modexp
  | validate
  | verify
  deriving DecidableEq, Repr

/-- The record taken at acceptance (10_state.md R30). -/
structure Job where
  op  : JobOp
  /-- EXP -/
  e   : Word
  /-- int(MOD) -/
  n   : Nat
  /-- AUX -/
  aux : List Word
  /-- OPA -/
  a   : List Byte
  /-- OPB -/
  b   : List Byte
  /-- DIGEST -/
  d   : List Byte
  deriving DecidableEq, Repr

/-- The ladder's hidden state inside RUN(job) (10_state.md R31). A MODMUL or VALIDATE job has no ladder, and both fields
stay 0, unread (DESIGN CHOICE, safe, log entry 5). -/
structure Ladder where
  /-- STEP: the next multiplication to perform, hence how many are done. After the last one, until the completion, it holds
  the ladder's length, 2 or 17; R31 gives STEP only while the ladder runs (0 to 16). DESIGN CHOICE, safe (log entry 5). -/
  step : Nat
  /-- ACC -/
  acc  : Nat
  deriving DecidableEq, Repr

/-- ENGINE: IDLE or RUN(job) (10_state.md R29). -/
inductive Engine where
  | idle
  | run (job : Job) (ladder : Ladder)
  deriving DecidableEq, Repr

/-- The bus response of one access (20_memory.md R41, R44). -/
inductive Resp where
  | okay
  | error
  deriving DecidableEq, Repr

/-- What the host's latest access was answered: the results of BusRead and BusWrite (20_memory.md R45, R46). -/
inductive Reply where
  /-- no access has been made -/
  | none
  | read (data : Word) (resp : Resp)
  | write (resp : Resp)
  deriving DecidableEq, Repr

/-- One turn of the interleaving of the block's agents (00_scope.md R11, 20_memory.md R48, 70_reset_and_hazards.md R116). -/
inductive Turn where
  /-- the host reads -/
  | read (off : Offset) (size : Nat)
  /-- the host writes; for a size other than 4 the data is never looked at (20_memory.md R41) -/
  | write (off : Offset) (size : Nat) (data : Word)
  /-- the engine performs one multiplication of a running ladder, which no host sees (10_state.md R31) -/
  | ladder
  /-- the engine completes its job (30_encoding.md R66) -/
  | complete
  /-- rst is asserted and deasserted (70_reset_and_hazards.md R116) -/
  | rst
  deriving DecidableEq, Repr

/-- The state of one block instance (10_state.md R13). -/
structure State where
  /-- the hardwired contents of ID (R21); no step changes it -/
  build  : Build
  /-- STATUS (R23) -/
  status : Status
  /-- EXP (R24) -/
  exp    : Word
  /-- IRQEN.IE (R25); IRQEN's other bits are reserved and have no storage -/
  ie     : Bool
  /-- MULCNT (R26) -/
  mulcnt : Word
  /-- MOD (R15) -/
  mod    : List Byte
  /-- AUX (R16) -/
  aux    : List Word
  /-- OPA (R17) -/
  opa    : List Byte
  /-- OPB (R18) -/
  opb    : List Byte
  /-- RES (R19) -/
  res    : List Byte
  /-- DIGEST (R20) -/
  digest : List Byte
  /-- ENGINE, with its job, STEP and ACC (R29 to R31) -/
  engine : Engine
  /-- the model's own: the turns still to come, next first (log entry 1) -/
  agenda : List Turn
  /-- the model's own: what the latest access was answered (log entry 6) -/
  reply  : Reply
  deriving DecidableEq, Repr

/-- Why a step stops the run. -/
inductive Fault where
  /-- Raised by the acceptance of MODMUL, MODEXP or VERIFY with ModOK false or, for the latter two, with OPA not below MOD
  (60_exceptions.md R103). Safe: the hardware's results are unspecified there, and no run goes on from it (log entry 4). -/
  | preconditionViolated (op : JobOp)
  deriving DecidableEq, Repr

/-- Why the model gives something no meaning. -/
inductive Refusal where
  /-- Raised by an arm of exec whose instruction has no meaning yet; no arm does. Safe. -/
  | notModelled (mnemonic : String)
  /-- Raised by `buildOf` for a NUMBYTES other than 128 and 256 or an AUX_WORDS above 256 (00_scope.md R7, U12). Safe. -/
  | illegalBuild (numBytes auxWords : Nat)
  deriving DecidableEq, Repr

/-- STATUS after reset: 0x00000000 (10_state.md R34). -/
def Status.reset : Status := ⟨false, false, false, false, .none, false⟩

/-- The state of a build after reset (10_state.md R34, 70_reset_and_hazards.md R116). -/
def State.resetOf (b : Build) : State where
  build := b
  status := Status.reset
  exp := 0
  ie := false
  mulcnt := 0
  mod := List.replicate b.numBytes 0
  aux := List.replicate b.auxWords.val 0
  opa := List.replicate b.numBytes 0
  opb := List.replicate b.numBytes 0
  res := List.replicate b.numBytes 0
  digest := List.replicate 32 0
  engine := .idle
  agenda := []
  reply := .none

/-- The state after reset, of the reference build; nothing is on the agenda yet. -/
def State.reset : State := State.resetOf Build.reference

/-! The named updates: one per field that a step writes. -/

def State.setStatus (s : State) (x : Status) : State := { s with status := x }
def State.setExp (s : State) (x : Word) : State := { s with exp := x }
def State.setIe (s : State) (x : Bool) : State := { s with ie := x }
def State.setMulcnt (s : State) (x : Word) : State := { s with mulcnt := x }
def State.setMod (s : State) (x : List Byte) : State := { s with mod := x }
def State.setAux (s : State) (x : List Word) : State := { s with aux := x }
def State.setOpa (s : State) (x : List Byte) : State := { s with opa := x }
def State.setOpb (s : State) (x : List Byte) : State := { s with opb := x }
def State.setRes (s : State) (x : List Byte) : State := { s with res := x }
def State.setDigest (s : State) (x : List Byte) : State := { s with digest := x }
def State.setEngine (s : State) (x : Engine) : State := { s with engine := x }
def State.setAgenda (s : State) (x : List Turn) : State := { s with agenda := x }
def State.setReply (s : State) (x : Reply) : State := { s with reply := x }

end Sys2Proof.Machine
end

