-- ==== Sys2Proof/Machine/Multiply.lean ====
section
/-! DEFINITION. Machine/Multiply.lean: the modular-multiply unit's contract and its precondition on the modulus
(40_modmul.md R67, R70). Its algorithm is not observable (R71). -/
namespace Sys2Proof.Machine

/-- MUL(n, aux, a, b) = (a * b) mod n; aux affects nothing (40_modmul.md R67). -/
def mul (n : Nat) (_aux : List Word) (a b : Nat) : Nat := a * b % n

/-- The AUX contents the implementation documents for n, AUX_WORDS words (92_eei_decisions.md D27). -/
def documentedAux (b : Build) (n : Nat) : List Word := (List.range b.auxWords.val).map (Config.auxWord b n)

/-- An RSA modulus of the configured size: odd, with bit K-1 set and no higher one (40_modmul.md R70). -/
def fullWidthOdd (b : Build) (n : Nat) : Bool :=
  n % 2 == 1 && 2 ^ (b.modulusBits - 1) ≤ n && n < 2 ^ b.modulusBits

/-- AuxValid(n, aux) (40_modmul.md R70): always true where AUX_WORDS is 0; true for every odd full-width modulus with its
documented AUX contents; and otherwise what the implementation chose. DEDUCED for AUX_WORDS 0 (log entry 3). -/
def auxValid (b : Build) (n : Nat) (aux : List Word) : Bool :=
  b.auxWords.val == 0 || (fullWidthOdd b n && aux == documentedAux b n) || Config.auxAdmits b n aux

/-- ModOK(n, aux) (40_modmul.md R70). -/
def modOK (b : Build) (n : Nat) (aux : List Word) : Bool := decide (2 ≤ n) && auxValid b n aux

end Sys2Proof.Machine
end

