-- ==== Sys2Proof/Decode.lean ====
section
/-! DEFINITION. Decode.lean: the command decoder, total on every 32-bit word (30_encoding.md R58), on any bytes, and the
encoder (R57). A rejection names its cause; the spec knows one ILLEGAL, and every cause is rejected alike (R63). -/
namespace Sys2Proof

/-- Why a word is ILLEGAL. The spec has the one outcome ILLEGAL (30_encoding.md R58); the names are the model's
(DESIGN CHOICE, safe: no rule distinguishes them, log entry 16). -/
inductive IllegalWord where
  /-- RSVD, bits 31:4, is not zero (30_encoding.md R55). -/
  | reservedBits
  /-- OP is 0x0 or 0x5 to 0xE (30_encoding.md R57). -/
  | unassignedOp
  /-- Fewer than four bytes: no command word at all (30_encoding.md R59). -/
  | notAWord
  deriving DecidableEq, Repr

/-- Field OP of CMD32, bits 3:0 (30_encoding.md R55). -/
def fieldOp (w : Word) : BitVec 4 := w.extractLsb' 0 4

/-- Field RSVD of CMD32, bits 31:4 (30_encoding.md R55). -/
def fieldRsvd (w : Word) : BitVec 28 := w.extractLsb' 4 28

/-- Decode(w), the whole word compared (30_encoding.md R58). -/
def decode (w : Word) : Except IllegalWord Instr :=
  if w = 0x00000001#32 then .ok .modmul
  else if w = 0x00000002#32 then .ok .modexp
  else if w = 0x00000003#32 then .ok .validate
  else if w = 0x00000004#32 then .ok .verify
  else if w = 0x0000000F#32 then .ok .srst
  else if fieldRsvd w = 0#28 then .error .unassignedOp
  else .error .reservedBits

/-- The word of four bytes, lowest offset first (20_memory.md R37). -/
def wordOfBytes (b0 b1 b2 b3 : Byte) : Word :=
  b0.setWidth 32 ||| (b1.setWidth 32 <<< 8) ||| (b2.setWidth 32 <<< 16) ||| (b3.setWidth 32 <<< 24)

/-- Byte j of a word: bits 8j+7 down to 8j (20_memory.md R37). -/
def byteOfWord (v : Word) (j : Nat) : Byte := v.extractLsb' (8 * j) 8

/-- The four bytes of a word, lowest offset first (20_memory.md R37). -/
def bytesOfWord (v : Word) : List Byte := [byteOfWord v 0, byteOfWord v 1, byteOfWord v 2, byteOfWord v 3]

/-- Decode a command from bytes in window order, with the bytes that follow it. A command is always one word
(30_encoding.md R59). -/
def decodeBytes : List Byte → Except IllegalWord (Instr × List Byte)
  | b0 :: b1 :: b2 :: b3 :: rest =>
    match decode (wordOfBytes b0 b1 b2 b3) with
    | .ok i => .ok (i, rest)
    | .error e => .error e
  | _ => .error .notAWord

/-- The command word of an instruction (30_encoding.md R57). -/
def encode : Instr → Word
  | .modmul => 0x00000001#32
  | .modexp => 0x00000002#32
  | .validate => 0x00000003#32
  | .verify => 0x00000004#32
  | .srst => 0x0000000F#32

/-- The 32-bit word of a table row of nbits bits, every bit above them 0. -/
def tableWord (nbits w : Nat) : Word := BitVec.ofNat 32 (w % 2 ^ nbits)

/-- The instruction the decoder reads from the bits w of a table row, laid out as the window stores them: one word, little
endian (20_memory.md R37). No instruction has more than one word (30_encoding.md R59). -/
def decodeTableWord (nbits w : Nat) : Option Instr :=
  if nbits ≤ 32 then
    match decodeBytes (bytesOfWord (tableWord nbits w)) with
    | .ok (i, _) => some i
    | .error _ => none
  else none

end Sys2Proof
end

