-- ==== Sys2Proof/Machine/Operands.lean ====
section
/-! DEFINITION. Machine/Operands.lean: byte arrays as integers and as words (00_scope.md R9, 20_memory.md R37 to R39), and
the register map, the block's one addressing mode (20_memory.md R36, R45). -/
namespace Sys2Proof.Machine

/-- int(B), little endian (00_scope.md R9). -/
def intLE : List Byte → Nat
  | [] => 0
  | x :: xs => x.toNat + 256 * intLE xs

/-- The len-byte little-endian image of v, le(v) (00_scope.md R9). -/
def leBytes : Nat → Nat → List Byte
  | 0, _ => []
  | len + 1, v => BitVec.ofNat 8 v :: leBytes len (v / 256)

/-- word(REG, i), the bytes 4i to 4i+3 of a byte-array register as one word (20_memory.md R37). A byte past the register's
end counts as 0; no offset of the register map reaches one (log entry 15). -/
def wordAt (reg : List Byte) (i : Nat) : Word :=
  wordOfBytes (reg.getD (4 * i) 0) (reg.getD (4 * i + 1) 0) (reg.getD (4 * i + 2) 0) (reg.getD (4 * i + 3) 0)

/-- Writing word i of a byte-array register: byte 4i+j becomes v[8j+7:8j], j = 0 to 3 (20_memory.md R37). -/
def setWordAt (reg : List Byte) (i : Nat) (v : Word) : List Byte :=
  (((reg.set (4 * i) (byteOfWord v 0)).set (4 * i + 1) (byteOfWord v 1)).set (4 * i + 2) (byteOfWord v 2)).set
    (4 * i + 3) (byteOfWord v 3)

/-- What stands at an offset of the window (20_memory.md R36). -/
inductive Slot where
  | id
  | cmd
  | status
  | exp
  | irqen
  | mulcnt
  | mod (i : Nat)
  | opa (i : Nat)
  | opb (i : Nat)
  | res (i : Nat)
  | digest (k : Nat)
  | aux (k : Nat)
  | reserved
  deriving DecidableEq, Repr

/-- The register map (20_memory.md R36), in the order of BusRead's tests (R45). -/
def slotOf (b : Build) (off : Nat) : Slot :=
  let i := off % 0x100 / 4
  if off = 0x000 then .id
  else if off = 0x004 then .cmd
  else if off = 0x008 then .status
  else if off = 0x00C then .exp
  else if off = 0x010 then .irqen
  else if off = 0x014 then .mulcnt
  else if 0x100 ≤ off ∧ off < 0x200 ∧ i < b.nwords then .mod i
  else if 0x200 ≤ off ∧ off < 0x300 ∧ i < b.nwords then .opa i
  else if 0x300 ≤ off ∧ off < 0x400 ∧ i < b.nwords then .opb i
  else if 0x400 ≤ off ∧ off < 0x500 ∧ i < b.nwords then .res i
  else if 0x500 ≤ off ∧ off < 0x520 then .digest ((off - 0x500) / 4)
  else if 0xC00 ≤ off ∧ (off - 0xC00) / 4 < b.auxWords.val then .aux ((off - 0xC00) / 4)
  else .reserved

/-- The hardwired contents of ID: NUMBYTES | AUX_WORDS << 16 (10_state.md R21). -/
def idWord (b : Build) : Word := BitVec.ofNat 32 b.numBytes ||| (BitVec.ofNat 32 b.auxWords.val <<< 16)

/-- An access is admitted only with size 4 at a multiple of 4 (20_memory.md R41). -/
def admitted (off : Offset) (size : Nat) : Bool := size == 4 && off.toNat % 4 == 0

/-- The build with the given NUMBYTES and AUX_WORDS; any number the spec does not allow is refused (00_scope.md R7). -/
def buildOf (numBytes auxWords : Nat) : Except Refusal Build :=
  if h : auxWords < 257 then
    if numBytes = 128 then .ok ⟨.bits1024, ⟨auxWords, h⟩⟩
    else if numBytes = 256 then .ok ⟨.bits2048, ⟨auxWords, h⟩⟩
    else .error (.illegalBuild numBytes auxWords)
  else .error (.illegalBuild numBytes auxWords)

end Sys2Proof.Machine
end

