-- ==== Sys2Proof/Machine/Exponent.lean ====
section
/-! DEFINITION. Machine/Exponent.lean: the exponent check and the fixed-shape ladder (41_modexp.md R75, R76, R79). -/
namespace Sys2Proof.Machine

/-- The exponent check, EXP compared in full (41_modexp.md R75). -/
def exponentValid (e : Word) : Bool := e == 3#32 || e == 65537#32

/-- One call of the multiply unit by the ladder, by the operands it takes (41_modexp.md R79). -/
inductive LadderCall where
  /-- (s, s) -/
  | squareSignature
  /-- (ACC, ACC) -/
  | squareAcc
  /-- (ACC, s) -/
  | timesSignature
  deriving DecidableEq, Repr

/-- How many multiplications the ladder of an exponent has: 17 for 65537, else 2 (41_modexp.md R76, R78). -/
def ladderLength (e : Word) : Nat := if e = 65537#32 then 17 else 2

/-- The call at a step index; it depends on the declared exponent alone (41_modexp.md R76, R79). -/
def ladderCall (e : Word) (step : Nat) : LadderCall :=
  if step = 0 then .squareSignature
  else if step + 1 < ladderLength e then .squareAcc
  else .timesSignature

/-- The multiplication a call performs, for the signature s and the accumulator (41_modexp.md R76). -/
def performCall (n : Nat) (aux : List Word) (s acc : Nat) : LadderCall → Nat
  | .squareSignature => mul n aux s s
  | .squareAcc => mul n aux acc acc
  | .timesSignature => mul n aux acc s

/-- The ladder at acceptance: no step done. ACC has no value yet; it is held as 0 and STEP 0 overwrites it unread
(DESIGN CHOICE, log entry 5). -/
def ladderStart : Ladder := ⟨0, 0⟩

/-- One step of a job's ladder (41_modexp.md R76). The last one leaves STEP at the ladder's length, 2 or 17, until the
completion: 10_state.md R31 gives STEP no value there (DESIGN CHOICE, safe: no host sees it, log entry 5). -/
def ladderStep (job : Job) (l : Ladder) : Ladder :=
  ⟨l.step + 1, performCall job.n job.aux (intLE job.a) l.acc (ladderCall job.e l.step)⟩

/-- So many steps of a job's ladder. -/
def ladderSteps (job : Job) : Nat → Ladder → Ladder
  | 0, l => l
  | k + 1, l => ladderSteps job k (ladderStep job l)

/-- The steps a job's ladder still has to do; the engine never skips one and never stops early (41_modexp.md R79). -/
def ladderFinish (job : Job) (l : Ladder) : Ladder := ladderSteps job (ladderLength job.e - l.step) l

end Sys2Proof.Machine
end

