-- ==== Sys2Proof/Machine/Flags.lean ====
section
/-! DEFINITION. Machine/Flags.lean: the STATUS fields: how the word is read, and each of the ways they are written
(10_state.md R23, R28). -/
namespace Sys2Proof.Machine

/-- A flag as bit 0 of a word. -/
def flagWord (f : Bool) : Word := if f then 1#32 else 0#32

/-- The number in STATUS.ERRCODE (60_exceptions.md R100). -/
def errCodeNat : ErrCode → Nat
  | .none => 0
  | .invalidExponent => 1
  | .illegalCommand => 2

/-- STATUS as a read shows it (20_memory.md R45). -/
def statusWord (st : Status) : Word :=
  flagWord st.busy ||| (flagWord st.done <<< 1) ||| (flagWord st.verdict <<< 2) ||| (flagWord st.err <<< 3)
    ||| (BitVec.ofNat 32 (errCodeNat st.errCode) <<< 4) ||| (flagWord st.ovr <<< 8)

/-- A host write of STATUS: bits 1 and 8 written as 1 clear DONE and OVR (20_memory.md R46). -/
def w1cStatus (v : Word) (st : Status) : Status :=
  { st with done := st.done && !v.getLsbD 1, ovr := st.ovr && !v.getLsbD 8 }

/-- Acceptance clears the last result status (30_encoding.md R62). -/
def acceptStatus (st : Status) : Status :=
  { st with done := false, verdict := false, err := false, errCode := .none, ovr := false }

/-- Immediate rejection (30_encoding.md R63). -/
def rejectStatus (code : ErrCode) (st : Status) : Status := { st with err := true, errCode := code, done := true }

/-- A CMD write while busy (30_encoding.md R64). -/
def overrunStatus (st : Status) : Status := { st with ovr := true }

/-- A job starts (30_encoding.md R62). -/
def startStatus (st : Status) : Status := { st with busy := true }

/-- Completion (30_encoding.md R66). -/
def completeStatus (verdict : Bool) (st : Status) : Status := { st with verdict := verdict, busy := false, done := true }

/-- The interrupt output: level, active high (60_exceptions.md R106). -/
def irq (s : State) : Bool := s.status.done && s.ie

end Sys2Proof.Machine
end

