-- ==== Sys2Proof/Machine/Ops.lean ====
section
/-! DEFINITION. Machine/Ops.lean: the operations the commands share (30_encoding.md R62 to R66). The block takes no
exception and returns from none (60_exceptions.md R107, R108): `reject` is its one way to record an error. -/
namespace Sys2Proof.Machine

/-- What a step answers. -/
abbrev Result := Host.Outcome State Fault Refusal

/-- A CMD write while the engine is busy is dropped and sets OVR (30_encoding.md R64). -/
def overrun (s : State) : State := s.setStatus (overrunStatus s.status)

/-- Acceptance clears the last result status (30_encoding.md R62). -/
def openCommand (s : State) : State := s.setStatus (acceptStatus s.status)

/-- raise Error(code): immediate rejection (30_encoding.md R63). -/
def reject (code : ErrCode) (s : State) : State := (s.setStatus (rejectStatus code s.status)).setMulcnt 0

/-- SoftReset and the reset input: every register to its reset value and any job discarded (44_system.md R99,
70_reset_and_hazards.md R116). The turns still to come and the answer of the access under way are no registers. -/
def softReset (s : State) : State := ((State.resetOf s.build).setAgenda s.agenda).setReply s.reply

/-- The job of a command: its inputs as they stand (10_state.md R30). -/
def snapshot (op : JobOp) (s : State) : Job :=
  { op := op, e := s.exp, n := intLE s.mod, aux := s.aux, a := s.opa, b := s.opb, d := s.digest }

/-- Pre(job) (30_encoding.md R65). -/
def pre (b : Build) (job : Job) : Bool :=
  match job.op with
  | .modmul => modOK b job.n job.aux
  | .modexp => modOK b job.n job.aux && decide (intLE job.a < job.n)
  | .validate => true
  | .verify => modOK b job.n job.aux && decide (intLE job.a < job.n)

/-- ENGINE becomes RUN(job) and BUSY is set (30_encoding.md R62). -/
def start (job : Job) (s : State) : State := (s.setStatus (startStatus s.status)).setEngine (.run job ladderStart)

/-- The end of Issue: the job is formed, and starts if its precondition holds. Where it does not, the hardware's results
are unspecified and the model faults (30_encoding.md R62, 60_exceptions.md R103; log entry 4). -/
def acceptJob (op : JobOp) (s : State) : Result :=
  if pre s.build (snapshot op s) then .next (start (snapshot op s) s) else .fault (.preconditionViolated op)

/-- The head of Issue for any word but SRST's: dropped while busy, else the last result status is cleared and the command
goes on (30_encoding.md R62). -/
def whenIdle (s : State) (go : State → Result) : Result :=
  match s.engine with
  | .idle => go (openCommand s)
  | .run _ _ => .next (overrun s)

/-- The exponent check of MODEXP and VERIFY, before the job is formed (41_modexp.md R75). -/
def whenExponentValid (s : State) (go : State → Result) : Result :=
  if exponentValid s.exp then go s else .next (reject .invalidExponent s)

/-- What Exec(job) answers: an integer for RES where the command has one, the verdict, the multiplications done
(30_encoding.md R65). -/
structure JobResult where
  value   : Option Nat
  verdict : Bool
  count   : Nat
  deriving DecidableEq, Repr

end Sys2Proof.Machine
end

