-- ==== Sys2Proof/Machine/Modexp.lean ====
section
/-! DEFINITION. Machine/Modexp.lean: MODEXP, RES <- OPA^EXP mod MOD (41_modexp.md R83). -/
namespace Sys2Proof.Machine

/-- The CMD write of MODEXP: engine idle, exponent valid, precondition, in this order (41_modexp.md R83). -/
def execModexp (s : State) : Result := whenIdle s fun s => whenExponentValid s fun s => acceptJob .modexp s

/-- Exec of a MODEXP job, from where its ladder stands (30_encoding.md R65, 10_state.md R31). -/
def modexpResult (job : Job) (l : Ladder) : JobResult :=
  ⟨some (ladderFinish job l).acc, false, (ladderFinish job l).step⟩

end Sys2Proof.Machine
end

