-- ==== Sys2Proof/Machine/Modmul.lean ====
section
/-! DEFINITION. Machine/Modmul.lean: MODMUL, modular multiply of OPA by OPB (40_modmul.md R74). -/
namespace Sys2Proof.Machine

/-- The CMD write of MODMUL: no check of its own but the modulus precondition (40_modmul.md R74). -/
def execModmul (s : State) : Result := whenIdle s fun s => acceptJob .modmul s

/-- Exec of a MODMUL job: (a * b) mod n, one multiplication (30_encoding.md R65). -/
def modmulResult (job : Job) : JobResult := ⟨some (mul job.n job.aux (intLE job.a) (intLE job.b)), false, 1⟩

end Sys2Proof.Machine
end

