-- ==== Sys2Proof/Machine/System.lean ====
section
/-! DEFINITION. Machine/System.lean: SRST, soft reset (44_system.md R99). -/
namespace Sys2Proof.Machine

/-- The CMD write of SRST: taken in every state, inside the write (44_system.md R99). -/
def execSrst (s : State) : Result := .next (softReset s)

end Sys2Proof.Machine
end

