-- ==== Sys2Proof/Machine/Validator.lean ====
section
/-! DEFINITION. Machine/Validator.lean: the byte-exact PKCS#1 v1.5 padding validator (42_validate.md R84 to R90). Every
check is made; the answer is their conjunction and nothing else (R91). -/
namespace Sys2Proof.Machine

/-- HASH_PREFIX, 19 bytes (42_validate.md R84). -/
def hashPrefix : List Byte :=
  [0x20, 0x04, 0x00, 0x05, 0x01, 0x02, 0x04, 0x03, 0x65, 0x01, 0x48, 0x86, 0x60, 0x09, 0x06, 0x0D, 0x30, 0x31, 0x30]

/-- The check P[i] == x; a byte that does not exist passes no check (fail-closed, 42_validate.md R90). -/
def byteIs (p : List Byte) (i : Nat) (x : Byte) : Bool := p[i]? == some x

/-- Step 1: P[31 - i] == D[i] for i in 0..32 (42_validate.md R86). -/
def checkDigest (p d : List Byte) : Bool := (List.range 32).all fun i => byteIs p (31 - i) (d.getD i 0)

/-- Step 2: P[i] == HASH_PREFIX[i - 32] for i in 32..51 (42_validate.md R87). -/
def checkHashPrefix (p : List Byte) : Bool := (List.range' 32 19).all fun i => byteIs p i (hashPrefix.getD (i - 32) 0)

/-- Step 3: P[51] == 0x00 (42_validate.md R88). -/
def checkSeparator (p : List Byte) : Bool := byteIs p 51 0x00

/-- What step 4 requires of P[i]; the last arm is dead in every legal build and kept (42_validate.md R89, U11). -/
def paddingByte (psLen i : Nat) : Byte :=
  if i < 52 + psLen then 0xFF
  else if i = 52 + psLen then 0x01
  else if i = 53 + psLen then 0x00
  else 0x00

/-- Step 4: the padding string and the markers, for i in 52..NUMBYTES (42_validate.md R89). -/
def checkPadding (numBytes : Nat) (p : List Byte) : Bool :=
  (List.range' 52 (numBytes - 52)).all fun i => byteIs p i (paddingByte (numBytes - 54) i)

/-- validate(P, D) (42_validate.md R90). -/
def validate (numBytes : Nat) (p d : List Byte) : Bool :=
  checkDigest p d && checkHashPrefix p && checkSeparator p && checkPadding numBytes p

end Sys2Proof.Machine
end

