-- ==== Sys2Proof/Machine/Validate.lean ====
section
/-! DEFINITION. Machine/Validate.lean: VALIDATE, VERDICT <- validate(OPA, DIGEST) (42_validate.md R93). -/
namespace Sys2Proof.Machine

/-- The CMD write of VALIDATE: no exponent check and no precondition (42_validate.md R93). -/
def execValidate (s : State) : Result := whenIdle s fun s => acceptJob .validate s

/-- Exec of a VALIDATE job: no integer, no multiplication (30_encoding.md R65). -/
def validateResult (b : Build) (job : Job) : JobResult := ⟨none, validate b.numBytes job.a job.d, 0⟩

end Sys2Proof.Machine
end

