-- ==== Sys2Proof/Machine/Verify.lean ====
section
/-! DEFINITION. Machine/Verify.lean: VERIFY, the exponentiation and the validation chained (43_verify.md R94, R97). The
padded message lives only inside the completion: no register takes it (10_state.md R32). -/
namespace Sys2Proof.Machine

/-- The CMD write of VERIFY: engine idle, exponent valid, precondition, in this order (43_verify.md R97). -/
def execVerify (s : State) : Result := whenIdle s fun s => whenExponentValid s fun s => acceptJob .verify s

/-- Exec of a VERIFY job, from where its ladder stands (30_encoding.md R65, 43_verify.md R94). -/
def verifyResult (b : Build) (job : Job) (l : Ladder) : JobResult :=
  ⟨none, validate b.numBytes (leBytes b.numBytes (ladderFinish job l).acc) job.d, (ladderFinish job l).step⟩

end Sys2Proof.Machine
end

