-- ==== Sys2Proof/Machine/Dispatch.lean ====
section
/-! DEFINITION. Machine/Dispatch.lean: one arm per command. exec i s is the CMD write of i's word (30_encoding.md R62). -/
namespace Sys2Proof.Machine
open Sys2Proof

def exec (i : Instr) (s : State) : Host.Outcome State Fault Refusal :=
  match i with
  | .modmul => Sys2Proof.Machine.execModmul s
  | .modexp => Sys2Proof.Machine.execModexp s
  | .validate => Sys2Proof.Machine.execValidate s
  | .verify => Sys2Proof.Machine.execVerify s
  | .srst => Sys2Proof.Machine.execSrst s

end Sys2Proof.Machine
end

