-- ==== Sys2Proof/Machine/Bus.lean ====
section
/-! DEFINITION. Machine/Bus.lean: the host's accesses (20_memory.md R45, R46) and Issue of a command word
(30_encoding.md R62). -/
namespace Sys2Proof.Machine

/-- Issue(w): the decoded command runs; an illegal word is dropped while busy and rejected otherwise (30_encoding.md R62). -/
def issue (w : Word) (s : State) : Result :=
  match decode w with
  | .ok i => exec i s
  | .error _ => whenIdle s fun s => .next (reject .illegalCommand s)

/-- The data an admitted read of a slot returns (20_memory.md R45). -/
def readSlot (s : State) : Slot → Word
  | .id => idWord s.build
  | .cmd => 0
  | .status => statusWord s.status
  | .exp => s.exp
  | .irqen => flagWord s.ie
  | .mulcnt => s.mulcnt
  | .mod i => wordAt s.mod i
  | .opa i => wordAt s.opa i
  | .opb i => wordAt s.opb i
  | .res i => wordAt s.res i
  | .digest k => wordAt s.digest k
  | .aux k => s.aux.getD k 0
  | .reserved => 0

/-- An admitted write of a slot (20_memory.md R46): CMD is an event, the read-only registers and the reserved offsets
ignore the write. -/
def writeSlot (v : Word) (s : State) : Slot → Result
  | .cmd => issue v s
  | .status => .next (s.setStatus (w1cStatus v s.status))
  | .exp => .next (s.setExp v)
  | .irqen => .next (s.setIe (v.getLsbD 0))
  | .mod i => .next (s.setMod (setWordAt s.mod i v))
  | .opa i => .next (s.setOpa (setWordAt s.opa i v))
  | .opb i => .next (s.setOpb (setWordAt s.opb i v))
  | .digest k => .next (s.setDigest (setWordAt s.digest k v))
  | .aux k => .next (s.setAux (s.aux.set k v))
  | .id | .mulcnt | .res _ | .reserved => .next s

/-- BusRead(off, size): nothing changes but the answer the host gets (20_memory.md R45). -/
def busRead (off : Offset) (size : Nat) (s : State) : State :=
  if admitted off size then s.setReply (.read (readSlot s (slotOf s.build off.toNat)) .okay)
  else s.setReply (.read 0 .error)

/-- BusWrite(off, size, v) (20_memory.md R46). -/
def busWrite (off : Offset) (size : Nat) (v : Word) (s : State) : Result :=
  if admitted off size then writeSlot v (s.setReply (.write .okay)) (slotOf s.build off.toNat)
  else .next (s.setReply (.write .error))

end Sys2Proof.Machine
end

