-- ==== Sys2Proof/Machine/Engine.lean ====
section
/-! DEFINITION. Machine/Engine.lean: the engine's turns: one hidden ladder step (10_state.md R31) and the completion
(30_encoding.md R66). -/
namespace Sys2Proof.Machine

/-- Exec(job), from where its ladder stands; it reads the job alone (30_encoding.md R65). -/
def jobResult (b : Build) (job : Job) (l : Ladder) : JobResult :=
  match job.op with
  | .modmul => modmulResult job
  | .modexp => modexpResult job l
  | .validate => validateResult b job
  | .verify => verifyResult b job l

/-- RES <- le(r) where the command has an integer result (30_encoding.md R66). -/
def writeResult (value : Option Nat) (s : State) : State :=
  match value with
  | some r => s.setRes (leBytes s.build.numBytes r)
  | none => s

/-- Complete() with a job's result (30_encoding.md R66). -/
def finishJob (x : JobResult) (s : State) : State :=
  (((writeResult x.value s).setStatus (completeStatus x.verdict s.status)).setMulcnt (BitVec.ofNat 32 x.count)).setEngine .idle

/-- The completion turn: enabled exactly when ENGINE = RUN(job) (30_encoding.md R66); otherwise nothing happens
(log entry 10). -/
def completeTurn (s : State) : State :=
  match s.engine with
  | .idle => s
  | .run job l => finishJob (jobResult s.build job l) s

/-- One hidden ladder step of a running MODEXP or VERIFY that still has one to do (10_state.md R31); otherwise nothing
happens (log entry 10). -/
def ladderTurn (s : State) : State :=
  match s.engine with
  | .idle => s
  | .run job l =>
    match job.op with
    | .modexp | .verify => if l.step < ladderLength job.e then s.setEngine (.run job (ladderStep job l)) else s
    | .modmul | .validate => s

end Sys2Proof.Machine
end

