-- ==== Sys2Proof/Machine/Turns.lean ====
section
/-! DEFINITION. Machine/Turns.lean: one turn of the interleaving (20_memory.md R48), and how a command word is put where
the next step takes it. -/
namespace Sys2Proof.Machine

/-- What one turn does. -/
def takeTurn (t : Turn) (s : State) : Result :=
  match t with
  | .read off size => .next (busRead off size s)
  | .write off size v => busWrite off size v s
  | .ladder => .next (ladderTurn s)
  | .complete => .next (completeTurn s)
  | .rst => .next (softReset s)

/-- With no turn left nothing but the engine can move: a running job completes, which is the weak fairness of the completion
(30_encoding.md R66); an idle block keeps every register (60_exceptions.md R115; log entry 9). -/
def quietTurn (s : State) : Result := .next (completeTurn s)

/-- The turn that presents a word to the command decoder: a 4-byte write of CMD (10_state.md R22). -/
def commandTurn (w : Word) : Turn := .write 0x004#12 4 w

end Sys2Proof.Machine
end

