-- ==== Sys2Proof/Machine/Step.lean ====
section
/-! DEFINITION. Machine/Step.lean: one step takes the agenda's next turn. -/
namespace Sys2Proof.Machine

/-- One step: the next turn of the agenda, taken off it first; or the quiet turn where none is left. -/
def step (s : State) : Host.Outcome State Fault Refusal :=
  match s.agenda with
  | [] => quietTurn s
  | t :: rest => takeTurn t (s.setAgenda rest)

/-- The state in which the very next step is the CMD write of a table row's word: it goes to the head of the agenda
(log entry 7). -/
def State.withFetchWord (s : State) (nbits w : Nat) : State :=
  s.setAgenda (commandTurn (tableWord nbits w) :: s.agenda)

end Sys2Proof.Machine
end

