-- ==== Sys2Proof/Machine/HostNotation.lean ====
section
/-! DEFINITION. Machine/HostNotation.lean: the pseudo-instructions of the host's program notation and their expansions into
bus accesses (30_encoding.md R60, R61). Host variables, labels and jumps are the host's and not the block's (R60). -/
namespace Sys2Proof.Machine

/-- The registers LDBIG may name (30_encoding.md R61). -/
inductive BigReg where
  | mod
  | opa
  | opb
  deriving DecidableEq, Repr

/-- A big register's first offset (20_memory.md R36). -/
def bigRegOffset : BigReg → Nat
  | .mod => 0x100
  | .opa => 0x200
  | .opb => 0x300

/-- `W off, imm32` (30_encoding.md R60). An offset above 0xFFF, which R60 gives no meaning, is taken mod 4096
(DESIGN CHOICE, unsafe for such a line, log entry 19). -/
def hostW (off : Nat) (v : Word) : Turn := .write (BitVec.ofNat 12 off) 4 v

/-- `R off` (30_encoding.md R60). An offset above 0xFFF is taken mod 4096, as for `W` (DESIGN CHOICE, unsafe for such a
line, log entry 19). -/
def hostR (off : Nat) : Turn := .read (BitVec.ofNat 12 off) 4

/-- `CMD i` (30_encoding.md R61). -/
def hostCmd (i : Instr) : List Turn := [commandTurn (encode i)]

/-- Word i of a natural number, the word LDBIG writes (30_encoding.md R61). -/
def wordOfNat (v i : Nat) : Word := BitVec.ofNat 32 (v >>> (32 * i))

/-- `LDBIG REG, v`: NWORDS writes at ascending offsets (30_encoding.md R61). For v of 2^K or more, which R61 excludes, the
bits above K are dropped (DESIGN CHOICE, unsafe for such a line, log entry 19). -/
def hostLdbig (b : Build) (r : BigReg) (v : Nat) : List Turn :=
  (List.range b.nwords).map fun i => hostW (bigRegOffset r + 4 * i) (wordOfNat v i)

/-- `LDDIG h`, h as its 32 bytes in natural order (30_encoding.md R61). A list of another length, which R61 excludes, is cut
at 32 bytes or filled with 0 (DESIGN CHOICE, unsafe for such a line, log entry 19). -/
def hostLddig (d : List Byte) : List Turn := (List.range 8).map fun k => hostW (0x500 + 4 * k) (wordAt d k)

/-- `LDAUX w0, w1, ...` (30_encoding.md R61). A word after the first 256 would lie past 0xFFF, and its write wraps to the
start of the window (DESIGN CHOICE, unsafe for such a line, log entry 19). -/
def hostLdaux (ws : List Word) : List Turn := ws.zipIdx.map fun x => hostW (0xC00 + 4 * x.2) x.1

/-- `WAIT` that finds BUSY clear at its poll number k, counted from 0: its reads of STATUS (30_encoding.md R61; log entry 18). -/
def hostWait (k : Nat) : List Turn := List.replicate (k + 1) (hostR 0x008)

/-- `RDBIG RES`: NWORDS reads at ascending offsets (30_encoding.md R61). -/
def hostRdbig (b : Build) : List Turn := (List.range b.nwords).map fun i => hostR (0x400 + 4 * i)

/-- `EXPECT`: no bus access (30_encoding.md R61). -/
def hostExpect : List Turn := []

end Sys2Proof.Machine
end

