-- ==== Sys2Proof/WellFormed.lean ====
section
/-! DEFINITION. WellFormed.lean: the checks on commands, command words, accesses and builds, each written from its rule
and not from the decoder or the bus, so that the two can be compared. -/
namespace Sys2Proof

/-- A command carries no operand, so each is well formed (30_encoding.md R56). -/
def Instr.wf : Instr → Bool
  | .modmul | .modexp | .validate | .verify | .srst => true

/-- The check of CMD32's RSVD field: bits 31:4 must be 0 (30_encoding.md R55). -/
def rsvdZero (w : Word) : Bool := w.toNat / 16 == 0

/-- The check of CMD32's OP field: bits 3:0 name a command (30_encoding.md R57). -/
def opAssigned (w : Word) : Bool := [0x1, 0x2, 0x3, 0x4, 0xF].contains (w.toNat % 16)

/-- A legal command word (30_encoding.md R55, R57). -/
def wfWord (w : Word) : Bool := rsvdZero w && opAssigned w

/-- An admitted access: size 4 at a multiple of 4 (20_memory.md R41). -/
def wfAccess (off : Offset) (size : Nat) : Bool := size == 4 && off.toNat % 4 == 0

/-- The numbers of a legal build: NUMBYTES 128 or 256 and AUX_WORDS at most 256 (00_scope.md R6, R7). -/
def wfBuildNumbers (numBytes auxWords : Nat) : Bool := (numBytes == 128 || numBytes == 256) && auxWords ≤ 256

end Sys2Proof
end

