-- ==== Sys2Proof/Safety.lean ====
section
/-! DEFINITION. Safety.lean: the terms claims are stated in: the machine's invariant, and the spec's own formulas for the
results (written from the rules a second time, not from the machine's definitions). -/
namespace Sys2Proof.Machine

/-! ## The invariant -/

/-- The fixed lengths of the array registers (10_state.md R15 to R20). -/
abbrev SizeInv (s : State) : Prop :=
  s.mod.length = s.build.numBytes ∧ s.opa.length = s.build.numBytes ∧ s.opb.length = s.build.numBytes ∧
  s.res.length = s.build.numBytes ∧ s.digest.length = 32 ∧ s.aux.length = s.build.auxWords.val

/-- What STATUS never shows (10_state.md R23, R101): BUSY beside a finished command's flags, an ERRCODE without ERR or ERR
without one, a verdict beside an error. -/
abbrev StatusInv (st : Status) : Prop :=
  (st.busy = true → st.done = false ∧ st.verdict = false ∧ st.err = false) ∧
  (st.err = false ↔ st.errCode = .none) ∧
  (st.err = true → st.verdict = false)

/-- The values MULCNT can hold (60_exceptions.md R111). -/
abbrev MulcntInv (s : State) : Prop := s.mulcnt = 0 ∨ s.mulcnt = 1 ∨ s.mulcnt = 2 ∨ s.mulcnt = 17

/-- The commands that run the ladder. -/
def usesLadder : JobOp → Bool
  | .modexp | .verify => true
  | .modmul | .validate => false

/-- Pre(job) as 30_encoding.md R65 and 40_modmul.md R70 word it. -/
def PreHolds (b : Build) (job : Job) : Prop :=
  match job.op with
  | .modmul => 2 ≤ job.n ∧ auxValid b job.n job.aux = true
  | .modexp | .verify => (2 ≤ job.n ∧ auxValid b job.n job.aux = true) ∧ intLE job.a < job.n
  | .validate => True

/-- The exponents a ladder may be asked for (41_modexp.md R75). -/
abbrev LegalExponent (e : Word) : Prop := e = 3#32 ∨ e = 65537#32

/-- A job that an acceptance can have formed (10_state.md R30, 30_encoding.md R62). -/
def JobInv (b : Build) (job : Job) : Prop :=
  job.n < 2 ^ b.modulusBits ∧ job.aux.length = b.auxWords.val ∧ job.a.length = b.numBytes ∧
  job.b.length = b.numBytes ∧ job.d.length = 32 ∧ PreHolds b job ∧ (usesLadder job.op = true → LegalExponent job.e)

/-- STEP is within the ladder, and ACC is what the steps done so far give (10_state.md R31). -/
def LadderInv (job : Job) (l : Ladder) : Prop :=
  if usesLadder job.op then l.step ≤ ladderLength job.e ∧ l = ladderSteps job l.step ladderStart else l = ladderStart

/-- ENGINE holds a job that an acceptance formed, or none (10_state.md R29 to R31). -/
def EngineInv (b : Build) : Engine → Prop
  | .idle => True
  | .run job l => JobInv b job ∧ LadderInv job l

/-- BUSY is 1 exactly when ENGINE = RUN(job) (10_state.md R29). -/
abbrev BusyInv (s : State) : Prop := s.status.busy = true ↔ s.engine ≠ .idle

/-- What holds of every state a run can reach. -/
structure State.Inv (s : State) : Prop where
  sizes  : SizeInv s
  status : StatusInv s.status
  mulcnt : MulcntInv s
  busy   : BusyInv s
  engine : EngineInv s.build s.engine

/-! ## The rules' own formulas -/

/-- Ladder(n, aux, s, e), the loop as 41_modexp.md R76 writes it: ACC and count. -/
def ladderR76 (n : Nat) (aux : List Word) (s : Nat) (e : Word) : Nat × Nat :=
  let first := (mul n aux s s, 1)
  let squared :=
    if e = 65537#32 then (List.range' 1 15).foldl (fun x _ => (mul n aux x.1 x.1, x.2 + 1)) first else first
  (mul n aux squared.1 s, squared.2 + 1)

/-- Exec(job), the table of 30_encoding.md R65. -/
def execR65 (b : Build) (job : Job) : JobResult :=
  let l := ladderR76 job.n job.aux (intLE job.a) job.e
  match job.op with
  | .modmul => ⟨some (mul job.n job.aux (intLE job.a) (intLE job.b)), false, 1⟩
  | .modexp => ⟨some l.1, false, l.2⟩
  | .validate => ⟨none, validate b.numBytes job.a job.d, 0⟩
  | .verify => ⟨none, validate b.numBytes (leBytes b.numBytes l.1) job.d, l.2⟩

/-- A byte string read as a big-endian number (42_validate.md R92). -/
def intBE (bs : List Byte) : Nat := bs.foldl (fun acc x => 256 * acc + x.toNat) 0

/-- The standard SHA-256 DigestInfo prefix 3031300d060960864801650304020105000420 (42_validate.md R84). -/
def digestInfo : List Byte :=
  [0x30, 0x31, 0x30, 0x0D, 0x06, 0x09, 0x60, 0x86, 0x48, 0x01, 0x65, 0x03, 0x04, 0x02, 0x01, 0x05, 0x00, 0x04, 0x20]

/-- EMint(D): 0x00, 0x01, PS_LEN times 0xFF, 0x00, the DigestInfo prefix, D, as a big-endian number (42_validate.md R92). -/
def emInt (b : Build) (d : List Byte) : Nat :=
  intBE ([0x00, 0x01] ++ List.replicate b.psLen 0xFF ++ [0x00] ++ digestInfo ++ d)

/-- Byte i of EM_LE(D), as 42_validate.md R92 lists them. -/
def emByte (b : Build) (d : List Byte) (i : Nat) : Byte :=
  if i < 32 then d.getD (31 - i) 0
  else if i ≤ 50 then hashPrefix.getD (i - 32) 0
  else if i = 51 then 0x00
  else if i ≤ b.numBytes - 3 then 0xFF
  else if i = b.numBytes - 2 then 0x01
  else 0x00

/-- The command word of a job's command (30_encoding.md R57). -/
def jobWord : JobOp → Word
  | .modmul => 0x00000001#32
  | .modexp => 0x00000002#32
  | .validate => 0x00000003#32
  | .verify => 0x00000004#32

/-- The reserved rows of the register map (20_memory.md R36), by their offset ranges. -/
def ReservedOffset (b : Build) (off : Nat) : Prop :=
  (0x018 ≤ off ∧ off ≤ 0x0FF) ∨
  (0x100 + 4 * b.nwords ≤ off ∧ off ≤ 0x1FF) ∨
  (0x200 + 4 * b.nwords ≤ off ∧ off ≤ 0x2FF) ∨
  (0x300 + 4 * b.nwords ≤ off ∧ off ≤ 0x3FF) ∨
  (0x400 + 4 * b.nwords ≤ off ∧ off ≤ 0x4FF) ∨
  (0x520 ≤ off ∧ off ≤ 0xBFF) ∨
  (0xC00 + 4 * b.auxWords.val ≤ off ∧ off ≤ 0xFFF)

/-- The input registers and the interrupt enable, which no command but SRST writes (30_encoding.md R56, R66). -/
abbrev SameInputs (s t : State) : Prop :=
  t.exp = s.exp ∧ t.ie = s.ie ∧ t.mod = s.mod ∧ t.aux = s.aux ∧ t.opa = s.opa ∧ t.opb = s.opb ∧ t.digest = s.digest

/-- STATUS right after a command is accepted and runs: 0x00000001 (95_test_vectors.md E3). -/
abbrev runningStatus : Status := ⟨true, false, false, false, .none, false⟩

/-- STATUS of a finished command that was not rejected, OVR aside (10_state.md R23). -/
abbrev finishedStatus (verdict ovr : Bool) : Status := ⟨false, true, verdict, false, .none, ovr⟩

/-- STATUS right after a rejection (30_encoding.md R63). -/
abbrev rejectedStatus (code : ErrCode) : Status := ⟨false, true, false, true, code, false⟩

/-- The state right after a command has been accepted in a state: BUSY set, the job taken, no ladder step done
(30_encoding.md R62, 10_state.md R30). -/
abbrev acceptedState (op : JobOp) (s : State) : State :=
  { s with
    status := runningStatus
    engine := .run ⟨op, s.exp, intLE s.mod, s.aux, s.opa, s.opb, s.digest⟩ ⟨0, 0⟩ }

/-- The offsets of the registers a host both writes and reads back in full: EXP and the words of MOD, OPA, OPB, DIGEST and
AUX (20_memory.md R36). -/
def PlainStoreOffset (b : Build) (off : Nat) : Prop :=
  off = 0x00C ∨
  (0x100 ≤ off ∧ off < 0x100 + 4 * b.nwords) ∨
  (0x200 ≤ off ∧ off < 0x200 + 4 * b.nwords) ∨
  (0x300 ≤ off ∧ off < 0x300 + 4 * b.nwords) ∨
  (0x500 ≤ off ∧ off < 0x520) ∨
  (0xC00 ≤ off ∧ off < 0xC00 + 4 * b.auxWords.val)

end Sys2Proof.Machine
end

