-- ==== Sys2Proof/Certificates/Slice0/Obligations.lean ====
section
/-! DEFINITION. Certificates/Slice0/Obligations.lean: the statements for the provers, each from the rules its docstring names.
`step { s with agenda := t :: rest }` is the step that takes the turn t; `.write 0x004#12 4 w` is the CMD write of w. -/

open Sys2Proof Sys2Proof.Machine

/-! ## Commands, words and the step that runs them -/

/-- The words of the opcode map, written out, decode to their commands (30_encoding.md section 2), the neighbours do not. -/
def Obligations.CommandWordsDecode : Prop :=
  decode 0b00000000000000000000000000000001#32 = .ok .modmul ∧
  decode 0b00000000000000000000000000000010#32 = .ok .modexp ∧
  decode 0b00000000000000000000000000000011#32 = .ok .validate ∧
  decode 0b00000000000000000000000000000100#32 = .ok .verify ∧
  decode 0b00000000000000000000000000001111#32 = .ok .srst ∧
  decode 0b00000000000000000000000000000000#32 = .error .unassignedOp ∧
  decode 0b00000000000000000000000000000101#32 = .error .unassignedOp ∧
  decode 0b00000000000000000000000000011111#32 = .error .reservedBits

/-- Decoding an encoded command gives it back, as a word and as the bytes the window holds (30_encoding.md sections 1, 2). -/
def Obligations.DecodeEncodeRoundTrip : Prop :=
  ∀ (i : Instr) (rest : List Byte),
    i.wf = true ∧ decode (encode i) = .ok i ∧ decodeBytes (bytesOfWord (encode i) ++ rest) = .ok (i, rest)

/-- The decoder accepts a word exactly if RSVD is zero and OP is assigned, and each command has one word
(30_encoding.md sections 1, 2). -/
def Obligations.DecodeAcceptsExactlyLegalWords : Prop :=
  ∀ w : Word, ((∃ i, decode w = .ok i) ↔ wfWord w = true) ∧ ∀ i, decode w = .ok i ↔ w = encode i

/-- A step whose turn is the CMD write of a word that decodes to i runs i, after taking the turn off the agenda and
answering the write OKAY (30_encoding.md sections 2, 4; 20_memory.md section 4). -/
def Obligations.StepRunsTheDecodedCommand : Prop :=
  ∀ (i : Instr) (w : Word) (s : State) (rest : List Turn), i.wf = true → decode w = .ok i →
    step { s with agenda := .write 0x004#12 4 w :: rest } =
      exec i { s with agenda := rest, reply := .write .okay } ∧
    step (s.withFetchWord 32 w.toNat) = exec i { s with reply := .write .okay }

/-- R58: Decode on every word; every word but the five is ILLEGAL, and at acceptance it is rejected with ERRCODE 2. -/
def Obligations.IllegalWordIsRejected : Prop :=
  (decode 0x00000001#32 = .ok .modmul ∧ decode 0x00000002#32 = .ok .modexp ∧ decode 0x00000003#32 = .ok .validate ∧
    decode 0x00000004#32 = .ok .verify ∧ decode 0x0000000F#32 = .ok .srst) ∧
  ∀ w : Word, w ∉ [0x00000001#32, 0x00000002#32, 0x00000003#32, 0x00000004#32, 0x0000000F#32] →
    (∃ e, decode w = .error e) ∧
    ∀ (s : State) (rest : List Turn), s.engine = .idle →
      step { s with agenda := .write 0x004#12 4 w :: rest } = .next
        { s with
          agenda := rest, reply := .write .okay, mulcnt := 0
          status := ⟨s.status.busy, true, false, true, .illegalCommand, false⟩ }

/-- R105: one CMD write has the first outcome that applies: SRST, overrun, ILLEGAL_COMMAND, INVALID_EXPONENT, the
precondition fault, acceptance. -/
def Obligations.FirstOutcomeThatApplies : Prop :=
  ∀ s : State,
    issue 0x0000000F#32 s = .next { State.resetOf s.build with agenda := s.agenda, reply := s.reply } ∧
    (∀ w, w ≠ 0x0000000F#32 → s.engine ≠ .idle → issue w s = .next { s with status := { s.status with ovr := true } }) ∧
    (s.engine = .idle →
      (∀ w, wfWord w = false → issue w s = .next
        { s with mulcnt := 0, status := ⟨s.status.busy, true, false, true, .illegalCommand, false⟩ }) ∧
      (∀ op, usesLadder op = true → ¬ LegalExponent s.exp → issue (jobWord op) s = .next
        { s with mulcnt := 0, status := ⟨s.status.busy, true, false, true, .invalidExponent, false⟩ }) ∧
      (∀ op, (usesLadder op = true → LegalExponent s.exp) → ¬ PreHolds s.build (snapshot op s) →
        issue (jobWord op) s = .fault (.preconditionViolated op)) ∧
      (∀ op, (usesLadder op = true → LegalExponent s.exp) → PreHolds s.build (snapshot op s) →
        issue (jobWord op) s = .next (acceptedState op s)))

/-- R64: a CMD write other than SRST's while the engine runs sets OVR, changes nothing else, and is answered OKAY. -/
def Obligations.OverrunDropsTheWord : Prop :=
  ∀ (s : State) (w : Word) (rest : List Turn), s.engine ≠ .idle → w ≠ 0x0000000F#32 →
    step { s with agenda := .write 0x004#12 4 w :: rest } = .next
      { s with agenda := rest, reply := .write .okay, status := { s.status with ovr := true } }

/-- R75: MODEXP and VERIFY with EXP neither 3 nor 65537 are rejected with ERRCODE 1, before any job is formed. -/
def Obligations.InvalidExponentIsRejected : Prop :=
  ∀ s : State, s.engine = .idle → s.exp ≠ 3#32 → s.exp ≠ 65537#32 →
    let t : State := { s with mulcnt := 0, status := ⟨s.status.busy, true, false, true, .invalidExponent, false⟩ }
    exec .modexp s = .next t ∧ exec .verify s = .next t

/-- R63: a rejected command, for either cause, sets ERR, ERRCODE and DONE and clears MULCNT inside its CMD write; BUSY and
VERDICT are 0, ENGINE stays IDLE, and RES and every input register keep their values. -/
def Obligations.RejectionIsImmediate : Prop :=
  ∀ (s : State) (rest : List Turn), s.Inv → s.engine = .idle →
    let rejected (w : Word) (code : ErrCode) : Prop :=
      step { s with agenda := .write 0x004#12 4 w :: rest } = .next
        { s with agenda := rest, reply := .write .okay, mulcnt := 0, status := ⟨false, true, false, true, code, false⟩ }
    (∀ w, wfWord w = false → rejected w .illegalCommand) ∧
    (∀ op, usesLadder op = true → ¬ LegalExponent s.exp → rejected (jobWord op) .invalidExponent)

/-! ## The five commands -/

/-- MODMUL completes wherever ModOK holds: it is accepted, and its completion writes RES, MULCNT and STATUS
(40_modmul.md section 2). -/
def Obligations.ModmulCompletes : Prop :=
  ∀ (s : State) (rest : List Turn), s.engine = .idle → 2 ≤ intLE s.mod → auxValid s.build (intLE s.mod) s.aux = true →
    exec .modmul s = .next (acceptedState .modmul s) ∧
    step { acceptedState .modmul s with agenda := .complete :: rest } = .next
      { s with
        agenda := rest, engine := .idle, mulcnt := 1, status := finishedStatus false false
        res := leBytes s.build.numBytes (intLE s.opa * intLE s.opb % intLE s.mod) }

/-- MODEXP completes wherever EXP is 3 or 65537, ModOK holds and OPA is below MOD, with RES = le(OPA^EXP mod MOD)
(41_modexp.md section 4). -/
def Obligations.ModexpCompletes : Prop :=
  ∀ (s : State) (rest : List Turn), s.engine = .idle → LegalExponent s.exp → 2 ≤ intLE s.mod →
    auxValid s.build (intLE s.mod) s.aux = true → intLE s.opa < intLE s.mod →
    exec .modexp s = .next (acceptedState .modexp s) ∧
    step { acceptedState .modexp s with agenda := .complete :: rest } = .next
      { s with
        agenda := rest, engine := .idle, mulcnt := (if s.exp = 3#32 then 2 else 17), status := finishedStatus false false
        res := leBytes s.build.numBytes (intLE s.opa ^ s.exp.toNat % intLE s.mod) }

/-- VALIDATE completes wherever the engine is idle, with no precondition, and leaves RES (42_validate.md section 4). -/
def Obligations.ValidateCompletes : Prop :=
  ∀ (s : State) (rest : List Turn), s.engine = .idle →
    exec .validate s = .next (acceptedState .validate s) ∧
    step { acceptedState .validate s with agenda := .complete :: rest } = .next
      { s with
        agenda := rest, engine := .idle, mulcnt := 0
        status := finishedStatus (validate s.build.numBytes s.opa s.digest) false }

/-- VERIFY completes wherever EXP is 3 or 65537, ModOK holds and OPA is below MOD; RES is left (43_verify.md section 2). -/
def Obligations.VerifyCompletes : Prop :=
  ∀ (s : State) (rest : List Turn), s.engine = .idle → LegalExponent s.exp → 2 ≤ intLE s.mod →
    auxValid s.build (intLE s.mod) s.aux = true → intLE s.opa < intLE s.mod →
    exec .verify s = .next (acceptedState .verify s) ∧
    step { acceptedState .verify s with agenda := .complete :: rest } = .next
      { s with
        agenda := rest, engine := .idle, mulcnt := (if s.exp = 3#32 then 2 else 17)
        status := finishedStatus
          (validate s.build.numBytes (leBytes s.build.numBytes (intLE s.opa ^ s.exp.toNat % intLE s.mod)) s.digest) false }

/-- SRST completes in every state: every register at its reset value, any job discarded, ID kept (44_system.md). -/
def Obligations.SrstResetsEverything : Prop :=
  ∀ s : State, exec .srst s = .next
    { build := s.build, status := ⟨false, false, false, false, .none, false⟩, exp := 0, ie := false, mulcnt := 0
      mod := List.replicate s.build.numBytes 0, aux := List.replicate s.build.auxWords.val 0
      opa := List.replicate s.build.numBytes 0, opb := List.replicate s.build.numBytes 0
      res := List.replicate s.build.numBytes 0, digest := List.replicate 32 0
      engine := .idle, agenda := s.agenda, reply := s.reply }

/-- MODMUL without ModOK, and MODEXP or VERIFY with a valid exponent but without ModOK or with OPA not below MOD, fault
(60_exceptions.md section 1: a model outcome). -/
def Obligations.PreconditionViolationFaults : Prop :=
  ∀ s : State, s.engine = .idle →
    (¬ (2 ≤ intLE s.mod ∧ auxValid s.build (intLE s.mod) s.aux = true) →
      exec .modmul s = .fault (.preconditionViolated .modmul)) ∧
    (LegalExponent s.exp →
      ¬ ((2 ≤ intLE s.mod ∧ auxValid s.build (intLE s.mod) s.aux = true) ∧ intLE s.opa < intLE s.mod) →
      exec .modexp s = .fault (.preconditionViolated .modexp) ∧
      exec .verify s = .fault (.preconditionViolated .verify))

/-- What a CMD write of MODMUL, MODEXP, VALIDATE or VERIFY leaves unchanged, whatever its outcome: every register but STATUS,
MULCNT and ENGINE; MULCNT but on a rejection; and while the engine runs, everything but OVR (30_encoding.md section 4). -/
def Obligations.CommandFrame : Prop :=
  ∀ (i : Instr) (s t : State), i ≠ .srst → exec i s = .next t →
    t.build = s.build ∧ SameInputs s t ∧ t.res = s.res ∧ t.agenda = s.agenda ∧ t.reply = s.reply ∧
    (t.mulcnt = s.mulcnt ∨ (t.mulcnt = 0 ∧ t.status.err = true ∧ t.engine = .idle)) ∧
    (s.engine ≠ .idle → t = { s with status := { s.status with ovr := true } })

/-! ## The engine -/

/-- Completion performs Exec(job), in one step, from a turn of its own or when no turn is left; every other register keeps
its value, and so do ERR, ERRCODE and OVR (30_encoding.md section 4). -/
def Obligations.CompletionPerformsTheJob : Prop :=
  ∀ (s : State) (job : Job) (l : Ladder) (rest : List Turn), s.Inv → s.engine = .run job l →
    let x := execR65 s.build job
    let t : State :=
      { s with
        engine := .idle, mulcnt := BitVec.ofNat 32 x.count
        status := { s.status with verdict := x.verdict, busy := false, done := true }
        res := match x.value with
          | some r => leBytes s.build.numBytes r
          | none => s.res }
    step { s with agenda := .complete :: rest } = .next { t with agenda := rest } ∧
    (s.agenda = [] → step s = .next t)

/-- What a completion leaves unchanged in every state (30_encoding.md section 4, 10_state.md section 2). -/
def Obligations.CompletionFrame : Prop :=
  ∀ (s t : State) (rest : List Turn), step { s with agenda := .complete :: rest } = .next t →
    t.build = s.build ∧ SameInputs s t ∧ t.agenda = rest ∧ t.reply = s.reply ∧ t.engine = .idle ∧
    t.status.ovr = s.status.ovr ∧ t.status.err = s.status.err ∧ t.status.errCode = s.status.errCode ∧
    (∀ job l, s.engine = .run job l → job.op = .validate ∨ job.op = .verify → t.res = s.res) ∧
    (s.engine = .idle → t = { s with agenda := rest })

/-- Completion reads only the job: two states of one build with one engine complete to one verdict, one count, and the same
RES where the command writes it (30_encoding.md section 4, 10_state.md section 5). -/
def Obligations.CompletionReadsOnlyTheJob : Prop :=
  ∀ s t : State, s.build = t.build → s.engine = t.engine → s.engine ≠ .idle →
    (completeTurn s).status.verdict = (completeTurn t).status.verdict ∧
    (completeTurn s).mulcnt = (completeTurn t).mulcnt ∧
    ((completeTurn s).res = (completeTurn t).res ∨ ((completeTurn s).res = s.res ∧ (completeTurn t).res = t.res))

/-- A ladder step is hidden: it changes nothing but ENGINE's STEP and ACC, never the job, and the completion after it is the
completion before it (10_state.md section 5). -/
def Obligations.LadderTurnIsHidden : Prop :=
  ∀ (s : State) (rest : List Turn),
    let t := ladderTurn s
    step { s with agenda := .ladder :: rest } = .next { t with agenda := rest } ∧
    t = { s with engine := t.engine } ∧
    (∀ job l, s.engine = .run job l → ∃ l', t.engine = .run job l') ∧ (s.engine = .idle → t = s) ∧
    completeTurn t = completeTurn s

/-- The machine's ladder ends with the accumulator and the count that the rule's loop ends with, for every job
(41_modexp.md section 2); the sequence of calls is LadderShapeIsFixed's. -/
def Obligations.LadderFollowsTheLoop : Prop :=
  ∀ job : Job, ((ladderFinish job ladderStart).acc, (ladderFinish job ladderStart).step) =
    ladderR76 job.n job.aux (intLE job.a) job.e

/-- R77: the ladder computes s^e mod n, with s^65536 mod n before the last step of the long one, below n. -/
def Obligations.LadderComputesThePower : Prop :=
  ∀ job : Job, intLE job.a < job.n →
    (job.e = 3#32 → (ladderFinish job ladderStart).acc = intLE job.a ^ 3 % job.n) ∧
    (job.e = 65537#32 → (ladderSteps job 16 ladderStart).acc = intLE job.a ^ 65536 % job.n ∧
      (ladderFinish job ladderStart).acc = intLE job.a ^ 65537 % job.n) ∧
    (LegalExponent job.e → (ladderFinish job ladderStart).acc < job.n)

/-- R78: the ladder makes 2 multiplications for e = 3 and 17 for e = 65537, whatever n, aux and s are. -/
def Obligations.LadderCountIsFixed : Prop :=
  ∀ job : Job, (job.e = 3#32 → (ladderFinish job ladderStart).step = 2) ∧
    (job.e = 65537#32 → (ladderFinish job ladderStart).step = 17)

/-- The calls of the two ladders and their operands, in order, are fixed by the exponent (41_modexp.md section 2). -/
def Obligations.LadderShapeIsFixed : Prop :=
  (List.range (ladderLength 3#32)).map (ladderCall 3#32) = [.squareSignature, .timesSignature] ∧
  (List.range (ladderLength 65537#32)).map (ladderCall 65537#32) =
    .squareSignature :: (List.replicate 15 .squareAcc ++ [.timesSignature])

/-- R68: a multiplication's result is below n, fits the register, and the register's number is the result itself. -/
def Obligations.ProductFitsTheRegister : Prop :=
  ∀ (b : Build) (n : Nat) (aux : List Word) (x y : Nat), modOK b n aux = true → n < 2 ^ b.modulusBits →
    mul n aux x y < n ∧ mul n aux x y < 2 ^ b.modulusBits ∧
    (leBytes b.numBytes (mul n aux x y)).length = b.numBytes ∧
    intLE (leBytes b.numBytes (mul n aux x y)) = x * y % n

/-- MUL commutes and does not read aux (40_modmul.md section 1). -/
def Obligations.ProductIsPure : Prop :=
  ∀ (n : Nat) (aux aux' : List Word) (x y : Nat), mul n aux x y = mul n aux y x ∧ mul n aux x y = mul n aux' x y

/-! ## The validator and verification -/

/-- R84: HASH_PREFIX is the byte reversal of the standard prefix, 19 bytes. -/
def Obligations.HashPrefixIsReversed : Prop :=
  hashPrefix = [32, 4, 0, 5, 1, 2, 4, 3, 101, 1, 72, 134, 96, 9, 6, 13, 48, 49, 48] ∧
  hashPrefix = digestInfo.reverse ∧ hashPrefix.length = 19

/-- R85: PS_LEN is 74 or 202, at least 8, and the layout fills NUMBYTES exactly. -/
def Obligations.PaddingFillsTheMessage : Prop :=
  ∀ b : Build, b.psLen = b.numBytes - 54 ∧ (b.numBytes = 128 → b.psLen = 74) ∧ (b.numBytes = 256 → b.psLen = 202) ∧
    32 + 19 + 1 + b.psLen + 1 + 1 = b.numBytes ∧ 8 ≤ b.psLen ∧ (b.numBytes = 128 ∨ b.numBytes = 256)

/-- The last arm of step 4 is dead in every legal build (42_validate.md section 2). -/
def Obligations.LastPaddingArmIsDead : Prop :=
  ∀ (b : Build) (i : Nat), 52 ≤ i → i < b.numBytes →
    i < 52 + b.psLen ∨ i = 52 + b.psLen ∨ i = 53 + b.psLen

/-- R92: validate is true exactly for EM_LE(D), equivalently exactly where int(P) = EMint(D); the bytes of EM_LE(D); the
range of EMint(D). -/
def Obligations.ValidateIffEncodedMessage : Prop :=
  ∀ (b : Build) (p d : List Byte), p.length = b.numBytes → d.length = 32 →
    (validate b.numBytes p d = true ↔ p = leBytes b.numBytes (emInt b d)) ∧
    (validate b.numBytes p d = true ↔ intLE p = emInt b d) ∧
    (∀ i, i < b.numBytes → (leBytes b.numBytes (emInt b d))[i]? = some (emByte b d i)) ∧
    2 ^ (b.modulusBits - 16) ≤ emInt b d ∧ emInt b d < 2 ^ (b.modulusBits - 15)

/-- One changed byte anywhere makes a valid message invalid (42_validate.md section 4, 90_conflicts.md C7). -/
def Obligations.ChangedByteIsRejected : Prop :=
  ∀ (b : Build) (p d : List Byte) (i : Nat) (x : Byte), p.length = b.numBytes → d.length = 32 → i < b.numBytes →
    validate b.numBytes p d = true → p[i]? ≠ some x → validate b.numBytes (p.set i x) d = false

/-- One padded message is valid for at most one digest (43_verify.md section 3, digest sensitivity). -/
def Obligations.OneDigestPerMessage : Prop :=
  ∀ (b : Build) (p d d' : List Byte), d.length = 32 → d'.length = 32 →
    validate b.numBytes p d = true → validate b.numBytes p d' = true → d = d'

/-- R95: with the exponent valid and the precondition met, VERIFY's verdict is true exactly if s^e mod n = EMint(D); it is
false for every s if n <= EMint(D), in particular for a modulus below 2^(K-16). -/
def Obligations.VerdictIffPowerIsTheMessage : Prop :=
  ∀ s : State, s.Inv → s.engine = .idle → LegalExponent s.exp → PreHolds s.build (snapshot .verify s) →
    ∃ t u : State, exec .verify s = .next t ∧ completeTurn t = u ∧ u.status.done = true ∧ u.status.err = false ∧
      (u.status.verdict = true ↔ intLE s.opa ^ s.exp.toNat % intLE s.mod = emInt s.build s.digest) ∧
      (intLE s.mod ≤ emInt s.build s.digest → u.status.verdict = false) ∧
      (intLE s.mod < 2 ^ (s.build.modulusBits - 16) → u.status.verdict = false)

/-- VERIFY is MODEXP followed by VALIDATE of its result: the same verdict and the same multiplications
(43_verify.md section 1, 95_test_vectors.md P5). -/
def Obligations.VerifyIsModexpThenValidate : Prop :=
  ∀ s : State, s.Inv → s.engine = .idle → LegalExponent s.exp → PreHolds s.build (snapshot .verify s) →
    ∃ t m v u : State,
      exec .modexp s = .next t ∧
      exec .validate { completeTurn t with opa := (completeTurn t).res } = .next m ∧
      completeTurn m = v ∧
      exec .verify s = .next u ∧
      (completeTurn u).status.verdict = v.status.verdict ∧
      (completeTurn u).mulcnt = (completeTurn t).mulcnt ∧ (completeTurn u).res = s.res

/-- R96: two VERIFY commands with equal jobs give equal verdicts and equal MULCNT, whatever else the two states hold and
however far the two ladders have come. -/
def Obligations.VerifyDependsOnTheJobAlone : Prop :=
  ∀ (s t : State) (job : Job) (l l' : Ladder), s.Inv → t.Inv → s.build = t.build → job.op = .verify →
    s.engine = .run job l → t.engine = .run job l' →
    (completeTurn s).status.verdict = (completeTurn t).status.verdict ∧
    (completeTurn s).mulcnt = (completeTurn t).mulcnt

/-! ## The register window -/

/-- R41: an access that is not 4 bytes at a multiple of 4 gets ERROR, changes no state, and a read returns 0. -/
def Obligations.MalformedAccessGetsError : Prop :=
  ∀ (s : State) (rest : List Turn) (off : Offset) (size : Nat) (v : Word), ¬ (size = 4 ∧ off.toNat % 4 = 0) →
    step { s with agenda := .read off size :: rest } = .next { s with agenda := rest, reply := .read 0 .error } ∧
    step { s with agenda := .write off size v :: rest } = .next { s with agenda := rest, reply := .write .error }

/-- A read changes nothing but the answer (20_memory.md sections 3, 4). -/
def Obligations.ReadsHaveNoSideEffect : Prop :=
  ∀ (s : State) (rest : List Turn) (off : Offset) (size : Nat), ∃ data resp,
    step { s with agenda := .read off size :: rest } = .next { s with agenda := rest, reply := .read data resp }

/-- What a read of each control register returns (20_memory.md section 4). -/
def Obligations.ControlRegistersRead : Prop :=
  ∀ (s : State) (rest : List Turn),
    let answers (off : Offset) (data : Word) : Prop :=
      step { s with agenda := .read off 4 :: rest } = .next { s with agenda := rest, reply := .read data .okay }
    answers 0x000 (idWord s.build) ∧ answers 0x004 0 ∧ answers 0x008 (statusWord s.status) ∧ answers 0x00C s.exp ∧
    answers 0x010 (if s.ie then 1 else 0) ∧ answers 0x014 s.mulcnt

/-- What a read of each data register returns (20_memory.md sections 1, 4). -/
def Obligations.DataRegistersRead : Prop :=
  ∀ (s : State) (rest : List Turn) (i : Nat) (off : Offset),
    let answers (data : Word) : Prop :=
      step { s with agenda := .read off 4 :: rest } = .next { s with agenda := rest, reply := .read data .okay }
    (i < s.build.nwords →
      (off.toNat = 0x100 + 4 * i → answers (wordAt s.mod i)) ∧ (off.toNat = 0x200 + 4 * i → answers (wordAt s.opa i)) ∧
      (off.toNat = 0x300 + 4 * i → answers (wordAt s.opb i)) ∧ (off.toNat = 0x400 + 4 * i → answers (wordAt s.res i))) ∧
    (i < 8 → off.toNat = 0x500 + 4 * i → answers (wordAt s.digest i)) ∧
    (i < s.build.auxWords.val → off.toNat = 0xC00 + 4 * i → answers (s.aux.getD i 0))

/-- What a write of each control register does: EXP and IRQEN.IE are stored, STATUS clears DONE and OVR where written 1, ID
and MULCNT ignore the write (20_memory.md section 4). -/
def Obligations.ControlRegisterWrites : Prop :=
  ∀ (s : State) (rest : List Turn) (v : Word),
    let writes (off : Offset) (t : State) : Prop :=
      step { s with agenda := .write off 4 v :: rest } = .next { t with agenda := rest, reply := .write .okay }
    writes 0x000 s ∧ writes 0x014 s ∧ writes 0x00C { s with exp := v } ∧ writes 0x010 { s with ie := v.getLsbD 0 } ∧
    writes 0x008
      { s with status :=
          { s.status with
            done := if v.getLsbD 1 then false else s.status.done
            ovr := if v.getLsbD 8 then false else s.status.ovr } }

/-- What a write of each data register does: the word's bytes are stored in MOD, OPA, OPB, DIGEST, the word in AUX, RES
ignores it, whether or not the engine is busy, and nothing else changes (20_memory.md section 4). -/
def Obligations.DataRegisterWrites : Prop :=
  ∀ (s : State) (rest : List Turn) (i : Nat) (off : Offset) (v : Word),
    let writes (t : State) : Prop :=
      step { s with agenda := .write off 4 v :: rest } = .next { t with agenda := rest, reply := .write .okay }
    (i < s.build.nwords →
      (off.toNat = 0x100 + 4 * i → writes { s with mod := setWordAt s.mod i v }) ∧
      (off.toNat = 0x200 + 4 * i → writes { s with opa := setWordAt s.opa i v }) ∧
      (off.toNat = 0x300 + 4 * i → writes { s with opb := setWordAt s.opb i v }) ∧
      (off.toNat = 0x400 + 4 * i → writes s)) ∧
    (i < 8 → off.toNat = 0x500 + 4 * i → writes { s with digest := setWordAt s.digest i v }) ∧
    (i < s.build.auxWords.val → off.toNat = 0xC00 + 4 * i → writes { s with aux := s.aux.set i v })

/-- R44: a reserved offset reads as 0 and ignores a write, with OKAY; the upper halves of the big registers of the small
build and the AUX words at AUX_WORDS and above are reserved. -/
def Obligations.ReservedOffsetsAreInert : Prop :=
  ∀ (s : State) (rest : List Turn) (off : Offset) (v : Word), off.toNat % 4 = 0 → ReservedOffset s.build off.toNat →
    step { s with agenda := .read off 4 :: rest } = .next { s with agenda := rest, reply := .read 0 .okay } ∧
    step { s with agenda := .write off 4 v :: rest } = .next { s with agenda := rest, reply := .write .okay }

/-- A word written to EXP or to a word of MOD, OPA, OPB, DIGEST or AUX is what the next read of that offset returns
(20_memory.md sections 3, 4, 6). -/
def Obligations.WriteThenReadBack : Prop :=
  ∀ (s : State) (rest : List Turn) (off : Offset) (v : Word), s.Inv → off.toNat % 4 = 0 →
    PlainStoreOffset s.build off.toNat →
    ∃ t u : State, step { s with agenda := .write off 4 v :: .read off 4 :: rest } = .next t ∧
      step t = .next u ∧ u.reply = .read v .okay ∧ u.agenda = rest

/-- A write at any offset but CMD's leaves the engine and its job, RES, MULCNT, the build and every STATUS field but DONE and
OVR unchanged, busy or not (20_memory.md section 4, 70_reset_and_hazards.md section 3). -/
def Obligations.PlainWriteFrame : Prop :=
  ∀ (s t : State) (rest : List Turn) (off : Offset) (size : Nat) (v : Word), off ≠ 0x004#12 →
    step { s with agenda := .write off size v :: rest } = .next t →
    t.build = s.build ∧ t.engine = s.engine ∧ t.res = s.res ∧ t.mulcnt = s.mulcnt ∧ t.agenda = rest ∧
    t.status.busy = s.status.busy ∧ t.status.verdict = s.status.verdict ∧ t.status.err = s.status.err ∧
    t.status.errCode = s.status.errCode

/-- R37: the byte lanes of a word: how a word is read from a byte array, and how a write of it sets its four bytes and no
other. -/
def Obligations.ByteLanes : Prop :=
  ∀ (reg : List Byte) (i : Nat) (v : Word),
    (wordAt reg i).toNat =
      (reg.getD (4 * i) 0).toNat + (reg.getD (4 * i + 1) 0).toNat * 2 ^ 8 + (reg.getD (4 * i + 2) 0).toNat * 2 ^ 16 +
        (reg.getD (4 * i + 3) 0).toNat * 2 ^ 24 ∧
    (setWordAt reg i v).length = reg.length ∧
    (∀ j, j < 4 → 4 * i + j < reg.length →
      (setWordAt reg i v)[4 * i + j]? = some (BitVec.ofNat 8 (v.toNat / 2 ^ (8 * j)))) ∧
    (∀ k, k < 4 * i ∨ 4 * i + 4 ≤ k → (setWordAt reg i v)[k]? = reg[k]?)

/-- R9: int and le on byte arrays of NUMBYTES bytes, and that each undoes the other. -/
def Obligations.LittleEndianImage : Prop :=
  ∀ (b : Build) (bs : List Byte) (v : Nat), bs.length = b.numBytes → v < 2 ^ b.modulusBits →
    intLE bs = ((List.range b.numBytes).map fun i => (bs.getD i 0).toNat * 256 ^ i).sum ∧
    (leBytes b.numBytes v).length = b.numBytes ∧
    (∀ i, i < b.numBytes → (leBytes b.numBytes v)[i]? = some (BitVec.ofNat 8 (v >>> (8 * i)))) ∧
    intLE (leBytes b.numBytes v) = v ∧ leBytes b.numBytes (intLE bs) = bs

/-- A big register's number is the sum of its words (20_memory.md section 2). -/
def Obligations.BigIntegerOfWords : Prop :=
  ∀ (b : Build) (reg : List Byte), reg.length = b.numBytes →
    intLE reg = ((List.range b.nwords).map fun i => (wordAt reg i).toNat * 2 ^ (32 * i)).sum

/-- Writing every word of a number v below 2^K leaves le(v), whatever the register held (30_encoding.md section 3,
70_reset_and_hazards.md section 3: LDBIG). -/
def Obligations.EveryWordWrittenGivesTheNumber : Prop :=
  ∀ (b : Build) (reg : List Byte) (v : Nat), reg.length = b.numBytes → v < 2 ^ b.modulusBits →
    (List.range b.nwords).foldl (fun r i => setWordAt r i (wordOfNat v i)) reg = leBytes b.numBytes v

/-- The bits of STATUS as read: BUSY 0, DONE 1, VERDICT 2, ERR 3, ERRCODE 7:4, OVR 8, the rest 0 (10_state.md section 3). -/
def Obligations.StatusWordLayout : Prop :=
  ∀ st : Status, (statusWord st).toNat =
    (if st.busy then 1 else 0) + (if st.done then 2 else 0) + (if st.verdict then 4 else 0) + (if st.err then 8 else 0) +
      16 * (match st.errCode with | .none => 0 | .invalidExponent => 1 | .illegalCommand => 2) +
      (if st.ovr then 256 else 0)

/-- R21: ID reads NUMBYTES in bits 15:0, AUX_WORDS in bits 24:16 and 0 above; a write is ignored; no step of any kind,
reset among them, changes it. -/
def Obligations.IdentityIsHardwired : Prop :=
  (∀ (s : State) (rest : List Turn),
    step { s with agenda := .read 0x000#12 4 :: rest } =
      .next { s with agenda := rest, reply := .read (idWord s.build) .okay } ∧
    (idWord s.build).toNat = s.build.numBytes + s.build.auxWords.val * 2 ^ 16 ∧
    (idWord s.build).toNat < 2 ^ 25 ∧ (idWord s.build).toNat % 2 ^ 16 = s.build.numBytes ∧
    ∀ v, step { s with agenda := .write 0x000#12 4 v :: rest } =
      .next { s with agenda := rest, reply := .write .okay }) ∧
  ∀ s t : State, step s = .next t → t.build = s.build

/-- The interrupt output and what each event does to it: completion and rejection raise it where IE is set, acceptance and
reset drop it, a W1C write of DONE drops it, an overrun leaves it (60_exceptions.md section 3). -/
def Obligations.InterruptFollowsDone : Prop :=
  ∀ s : State, irq s = (s.status.done && s.ie) ∧
    (∀ code, irq (reject code s) = s.ie) ∧
    (∀ job l, s.engine = .run job l → irq (completeTurn s) = s.ie) ∧
    irq (openCommand s) = false ∧ irq (softReset s) = false ∧ irq (overrun s) = irq s ∧
    (∀ v : Word, v.getLsbD 1 = true → irq (s.setStatus (w1cStatus v s.status)) = false)

/-! ## Reset, quiet and the whole machine -/

/-- R34: after reset and after SRST every register is zero and ENGINE is IDLE, and ID keeps its value; in every build. -/
def Obligations.ResetValues : Prop :=
  ∀ (s : State) (rest : List Turn),
    let r : State := { State.resetOf s.build with agenda := rest, reply := s.reply }
    step { s with agenda := .rst :: rest } = .next r ∧
    step { s with agenda := .write 0x004#12 4 0x0000000F#32 :: rest } = .next { r with reply := .write .okay } ∧
    r.build = s.build ∧ statusWord r.status = 0 ∧ r.status = ⟨false, false, false, false, .none, false⟩ ∧
    r.exp = 0 ∧ r.ie = false ∧ r.mulcnt = 0 ∧ r.engine = .idle ∧
    r.mod = List.replicate s.build.numBytes 0 ∧ r.opa = List.replicate s.build.numBytes 0 ∧
    r.opb = List.replicate s.build.numBytes 0 ∧ r.res = List.replicate s.build.numBytes 0 ∧
    r.digest = List.replicate 32 0 ∧ r.aux = List.replicate s.build.auxWords.val 0

/-- With no turn left an idle block stays as it is (60_exceptions.md section 5). -/
def Obligations.IdleBlockKeepsItsState : Prop :=
  ∀ s : State, s.engine = .idle → s.agenda = [] → step s = .next s

/-- The results of a command stay until the next CMD write or reset: no other turn changes RES, MULCNT or VERDICT of an idle
block (20_memory.md section 6). -/
def Obligations.ResultsStayUntilTheNextCommand : Prop :=
  ∀ (s t : State) (turn : Turn) (rest : List Turn), s.engine = .idle → turn ≠ .rst →
    (∀ v, turn ≠ .write 0x004#12 4 v) → step { s with agenda := turn :: rest } = .next t →
    t.res = s.res ∧ t.mulcnt = s.mulcnt ∧ t.status.verdict = s.status.verdict ∧ t.engine = .idle

/-- A step never refuses, and it faults only at the CMD write of MODMUL, MODEXP or VERIFY, with the engine idle, the exponent
valid where it is checked, and the precondition violated (60_exceptions.md sections 1, 2). -/
def Obligations.OnlyPreconditionsFault : Prop :=
  ∀ s : State, (∀ r, step s ≠ .refused r) ∧
    ∀ f, step s = .fault f → ∃ (op : JobOp) (rest : List Turn),
      s.agenda = .write 0x004#12 4 (jobWord op) :: rest ∧ s.engine = .idle ∧
      (usesLadder op = true → LegalExponent s.exp) ∧ ¬ PreHolds s.build (snapshot op s) ∧
      f = .preconditionViolated op ∧ op ≠ .validate

/-- The state after reset meets the invariant, in every build (10_state.md section 6). -/
def Obligations.ResetMeetsTheInvariant : Prop :=
  (∀ b : Build, (State.resetOf b).Inv) ∧ State.reset.Inv

/-- Every step keeps the invariant: register lengths, BUSY = RUN, the STATUS invariants, MULCNT's values, a well-formed job
whose precondition holds, and a ladder that is on its way (10_state.md sections 2 to 5). That STEP holds the ladder's length
between the last multiplication and the completion is the model's choice (log entry 5). -/
def Obligations.StepKeepsTheInvariant : Prop :=
  ∀ s t : State, s.Inv → step s = .next t → t.Inv
end

