-- ==== Sys2Proof/Laws/Bytes.lean ====
section
/-! SUPPORT. Laws/Bytes.lean: byte arrays as integers and as words (00_scope.md R9, 20_memory.md R37). -/
namespace Sys2Proof.Machine

@[simp] theorem intLE_nil : intLE [] = 0 := rfl
@[simp] theorem intLE_cons (x : Byte) (xs : List Byte) : intLE (x :: xs) = x.toNat + 256 * intLE xs := rfl
@[simp] theorem leBytes_zero (v : Nat) : leBytes 0 v = [] := rfl
theorem leBytes_succ (len v : Nat) : leBytes (len + 1) v = BitVec.ofNat 8 v :: leBytes len (v / 256) := rfl

@[simp] theorem leBytes_length (len v : Nat) : (leBytes len v).length = len := by
  induction len generalizing v with
  | zero => rfl
  | succ len ih => simp [leBytes_succ, ih]

theorem intLE_lt (l : List Byte) : intLE l < 256 ^ l.length := by
  induction l with
  | nil => simp
  | cons x xs ih =>
    have hx : x.toNat < 256 := x.isLt
    simp only [intLE_cons, List.length_cons, Nat.pow_succ]
    omega

theorem intLE_leBytes (len v : Nat) : intLE (leBytes len v) = v % 256 ^ len := by
  induction len generalizing v with
  | zero => simp [Nat.mod_one]
  | succ len ih =>
    simp only [leBytes_succ, intLE_cons, ih, BitVec.toNat_ofNat]
    rw [Nat.pow_succ 256 len, Nat.mul_comm (256 ^ len) 256, Nat.mod_mul (a := 256)]

theorem leBytes_intLE (l : List Byte) : leBytes l.length (intLE l) = l := by
  induction l with
  | nil => rfl
  | cons x xs ih =>
    have hx : x.toNat < 256 := x.isLt
    have hdiv : (x.toNat + 256 * intLE xs) / 256 = intLE xs := by omega
    have hmod : BitVec.ofNat 8 (x.toNat + 256 * intLE xs) = x := by
      apply BitVec.eq_of_toNat_eq
      simp only [BitVec.toNat_ofNat]
      omega
    simp only [List.length_cons, intLE_cons, leBytes_succ, hdiv, hmod, ih]

/-- Two byte arrays of one length with one number are one array. -/
theorem eq_of_intLE_eq {l m : List Byte} (hlen : l.length = m.length) (h : intLE l = intLE m) : l = m := by
  rw [← leBytes_intLE l, ← leBytes_intLE m, hlen, h]

theorem leBytes_getElem? (len v i : Nat) (h : i < len) : (leBytes len v)[i]? = some (BitVec.ofNat 8 (v / 256 ^ i)) := by
  induction len generalizing v i with
  | zero => omega
  | succ len ih =>
    cases i with
    | zero => simp [leBytes_succ]
    | succ i =>
      rw [leBytes_succ, List.getElem?_cons_succ, ih _ _ (by omega), Nat.div_div_eq_div_mul, Nat.pow_succ, Nat.mul_comm]

theorem byteOfWord_eq (v : Word) (j : Nat) : byteOfWord v j = BitVec.ofNat 8 (v.toNat / 2 ^ (8 * j)) := by
  apply BitVec.eq_of_toNat_eq
  simp [byteOfWord, Nat.shiftRight_eq_div_pow]

/-- Bits that do not overlap are ored by adding. -/
theorem or_shifted (lo hi k : Nat) (h : lo < 2 ^ k) : lo ||| hi * 2 ^ k = lo + hi * 2 ^ k := by
  rw [Nat.or_comm, ← Nat.shiftLeft_eq, ← Nat.shiftLeft_add_eq_or_of_lt h, Nat.add_comm]

theorem wordOfBytes_toNat (b0 b1 b2 b3 : Byte) :
    (wordOfBytes b0 b1 b2 b3).toNat = b0.toNat + b1.toNat * 2 ^ 8 + b2.toNat * 2 ^ 16 + b3.toNat * 2 ^ 24 := by
  have h0 := b0.isLt
  have h1 := b1.isLt
  have h2 := b2.isLt
  have h3 := b3.isLt
  have wide (b : Byte) : b.toNat % 2 ^ 32 = b.toNat := Nat.mod_eq_of_lt (by have := b.isLt; omega)
  have lane (b : Byte) (k : Nat) (hk : k ≤ 24) : b.toNat * 2 ^ k % 2 ^ 32 = b.toNat * 2 ^ k :=
    Nat.mod_eq_of_lt (calc
      b.toNat * 2 ^ k < 2 ^ 8 * 2 ^ k := Nat.mul_lt_mul_of_pos_right b.isLt (Nat.two_pow_pos k)
      _ ≤ 2 ^ 8 * 2 ^ 24 := Nat.mul_le_mul_left _ (Nat.pow_le_pow_right (by decide) hk)
      _ = 2 ^ 32 := by decide)
  simp only [wordOfBytes, BitVec.toNat_or, BitVec.toNat_shiftLeft, BitVec.toNat_setWidth, wide, Nat.shiftLeft_eq]
  rw [lane b1 8 (by decide), lane b2 16 (by decide), lane b3 24 (by decide), or_shifted _ _ 8 h0,
    or_shifted _ _ 16 (by omega), or_shifted _ _ 24 (by omega)]

theorem wordOfBytes_bytesOfWord (v : Word) :
    wordOfBytes (byteOfWord v 0) (byteOfWord v 1) (byteOfWord v 2) (byteOfWord v 3) = v := by
  apply BitVec.eq_of_toNat_eq
  have hv := v.isLt
  simp only [wordOfBytes_toNat, byteOfWord_eq, BitVec.toNat_ofNat]
  omega

@[simp] theorem setWordAt_length (reg : List Byte) (i : Nat) (v : Word) : (setWordAt reg i v).length = reg.length := by
  simp [setWordAt]

/-- A word written is the word read back at the same place. -/
theorem wordAt_setWordAt (reg : List Byte) (i : Nat) (v : Word) (h : 4 * i + 3 < reg.length) :
    wordAt (setWordAt reg i v) i = v := by
  have h0 : 4 * i < reg.length := by omega
  have h1 : 4 * i + 1 < reg.length := by omega
  have h2 : 4 * i + 2 < reg.length := by omega
  conv_rhs => rw [← wordOfBytes_bytesOfWord v]
  simp [wordAt, setWordAt, List.getD_eq_getElem?_getD, h, h0, h1, h2]

end Sys2Proof.Machine
end

