-- ==== Sys2Proof/Laws/Ladder.lean ====
section
/-! SUPPORT. Laws/Ladder.lean: what the ladder's steps do (41_modexp.md R76). -/
namespace Sys2Proof.Machine

@[simp] theorem ladderStep_step (job : Job) (l : Ladder) : (ladderStep job l).step = l.step + 1 := rfl

theorem ladderSteps_succ (job : Job) (k : Nat) (l : Ladder) :
    ladderSteps job (k + 1) l = ladderStep job (ladderSteps job k l) := by
  induction k generalizing l with
  | zero => rfl
  | succ k ih => exact ih (ladderStep job l)

@[simp] theorem ladderSteps_step (job : Job) (k : Nat) (l : Ladder) : (ladderSteps job k l).step = l.step + k := by
  induction k with
  | zero => rfl
  | succ k ih => rw [ladderSteps_succ, ladderStep_step, ih, Nat.add_assoc]

theorem ladderSteps_add (job : Job) (j k : Nat) (l : Ladder) :
    ladderSteps job (j + k) l = ladderSteps job k (ladderSteps job j l) := by
  induction k with
  | zero => rfl
  | succ k ih => rw [← Nat.add_assoc, ladderSteps_succ, ih, ← ladderSteps_succ]

/-- A step taken early leaves the end of the ladder where it was. -/
theorem ladderFinish_ladderStep (job : Job) (l : Ladder) (h : l.step < ladderLength job.e) :
    ladderFinish job (ladderStep job l) = ladderFinish job l := by
  have hk : ladderLength job.e - l.step = ladderLength job.e - (l.step + 1) + 1 := by omega
  simp only [ladderFinish, ladderStep_step, hk, ladderSteps]

/-- A ladder on its way ends where a whole one does. -/
theorem ladderFinish_of_onTrack (job : Job) (l : Ladder) (hle : l.step ≤ ladderLength job.e)
    (h : l = ladderSteps job l.step ladderStart) : ladderFinish job l = ladderFinish job ladderStart := by
  have hk : ladderLength job.e = l.step + (ladderLength job.e - l.step) := by omega
  rw [ladderFinish, ladderFinish]
  conv_rhs => rw [show ladderStart.step = 0 from rfl, Nat.sub_zero, hk, ladderSteps_add, ← h]

@[simp] theorem mul_eq (n : Nat) (aux : List Word) (x y : Nat) : mul n aux x y = x * y % n := rfl

/-- After k + 1 steps short of the last, the accumulator is s raised to 2 to the k + 1 (41_modexp.md R77). -/
theorem ladderSteps_acc (job : Job) (k : Nat) (hk : k + 1 < ladderLength job.e) :
    (ladderSteps job (k + 1) ladderStart).acc = intLE job.a ^ 2 ^ (k + 1) % job.n := by
  induction k with
  | zero => simp [ladderSteps, ladderStep, ladderCall, ladderStart, performCall, Nat.pow_two]
  | succ k ih =>
    have hprev := ih (by omega)
    have hcall : ladderCall job.e (k + 1) = .squareAcc := by
      simp [ladderCall]
      omega
    have hstep : (ladderSteps job (k + 1) ladderStart).step = k + 1 := by simp [ladderStart]
    rw [ladderSteps_succ, ladderStep, hstep, hcall]
    simp only [performCall, mul_eq, hprev]
    rw [← Nat.mul_mod, ← Nat.pow_add, Nat.pow_succ 2 (k + 1), Nat.mul_two]

/-- The last step multiplies by the signature once more (41_modexp.md R77). -/
theorem ladderFinish_acc (job : Job) (k : Nat) (hk : k + 2 = ladderLength job.e) :
    (ladderFinish job ladderStart).acc = intLE job.a ^ (2 ^ (k + 1) + 1) % job.n := by
  have hlen : ladderLength job.e - ladderStart.step = k + 1 + 1 := by simp [ladderStart, ← hk]
  have hcall : ladderCall job.e (k + 1) = .timesSignature := by simp [ladderCall, ← hk]
  have hstep : (ladderSteps job (k + 1) ladderStart).step = k + 1 := by simp [ladderStart]
  rw [ladderFinish, hlen, ladderSteps_succ, ladderStep, hstep, hcall]
  simp only [performCall, mul_eq, ladderSteps_acc job k (by omega)]
  rw [Nat.mod_mul_mod, ← Nat.pow_succ]

@[simp] theorem ladderFinish_step (job : Job) : (ladderFinish job ladderStart).step = ladderLength job.e := by
  simp [ladderFinish, ladderStart]

end Sys2Proof.Machine
end

