-- ==== Sys2Proof/Laws/State.lean ====
section
/-! SUPPORT. Laws/State.lean: every named update of the state, read through every field, and the fields after reset. -/
namespace Sys2Proof.Machine

variable (s : State)

@[simp] theorem State.setStatus_build (x : Status) : (s.setStatus x).build = s.build := rfl
@[simp] theorem State.setStatus_status (x : Status) : (s.setStatus x).status = x := rfl
@[simp] theorem State.setStatus_exp (x : Status) : (s.setStatus x).exp = s.exp := rfl
@[simp] theorem State.setStatus_ie (x : Status) : (s.setStatus x).ie = s.ie := rfl
@[simp] theorem State.setStatus_mulcnt (x : Status) : (s.setStatus x).mulcnt = s.mulcnt := rfl
@[simp] theorem State.setStatus_mod (x : Status) : (s.setStatus x).mod = s.mod := rfl
@[simp] theorem State.setStatus_aux (x : Status) : (s.setStatus x).aux = s.aux := rfl
@[simp] theorem State.setStatus_opa (x : Status) : (s.setStatus x).opa = s.opa := rfl
@[simp] theorem State.setStatus_opb (x : Status) : (s.setStatus x).opb = s.opb := rfl
@[simp] theorem State.setStatus_res (x : Status) : (s.setStatus x).res = s.res := rfl
@[simp] theorem State.setStatus_digest (x : Status) : (s.setStatus x).digest = s.digest := rfl
@[simp] theorem State.setStatus_engine (x : Status) : (s.setStatus x).engine = s.engine := rfl
@[simp] theorem State.setStatus_agenda (x : Status) : (s.setStatus x).agenda = s.agenda := rfl
@[simp] theorem State.setStatus_reply (x : Status) : (s.setStatus x).reply = s.reply := rfl

@[simp] theorem State.setExp_build (x : Word) : (s.setExp x).build = s.build := rfl
@[simp] theorem State.setExp_status (x : Word) : (s.setExp x).status = s.status := rfl
@[simp] theorem State.setExp_exp (x : Word) : (s.setExp x).exp = x := rfl
@[simp] theorem State.setExp_ie (x : Word) : (s.setExp x).ie = s.ie := rfl
@[simp] theorem State.setExp_mulcnt (x : Word) : (s.setExp x).mulcnt = s.mulcnt := rfl
@[simp] theorem State.setExp_mod (x : Word) : (s.setExp x).mod = s.mod := rfl
@[simp] theorem State.setExp_aux (x : Word) : (s.setExp x).aux = s.aux := rfl
@[simp] theorem State.setExp_opa (x : Word) : (s.setExp x).opa = s.opa := rfl
@[simp] theorem State.setExp_opb (x : Word) : (s.setExp x).opb = s.opb := rfl
@[simp] theorem State.setExp_res (x : Word) : (s.setExp x).res = s.res := rfl
@[simp] theorem State.setExp_digest (x : Word) : (s.setExp x).digest = s.digest := rfl
@[simp] theorem State.setExp_engine (x : Word) : (s.setExp x).engine = s.engine := rfl
@[simp] theorem State.setExp_agenda (x : Word) : (s.setExp x).agenda = s.agenda := rfl
@[simp] theorem State.setExp_reply (x : Word) : (s.setExp x).reply = s.reply := rfl

@[simp] theorem State.setIe_build (x : Bool) : (s.setIe x).build = s.build := rfl
@[simp] theorem State.setIe_status (x : Bool) : (s.setIe x).status = s.status := rfl
@[simp] theorem State.setIe_exp (x : Bool) : (s.setIe x).exp = s.exp := rfl
@[simp] theorem State.setIe_ie (x : Bool) : (s.setIe x).ie = x := rfl
@[simp] theorem State.setIe_mulcnt (x : Bool) : (s.setIe x).mulcnt = s.mulcnt := rfl
@[simp] theorem State.setIe_mod (x : Bool) : (s.setIe x).mod = s.mod := rfl
@[simp] theorem State.setIe_aux (x : Bool) : (s.setIe x).aux = s.aux := rfl
@[simp] theorem State.setIe_opa (x : Bool) : (s.setIe x).opa = s.opa := rfl
@[simp] theorem State.setIe_opb (x : Bool) : (s.setIe x).opb = s.opb := rfl
@[simp] theorem State.setIe_res (x : Bool) : (s.setIe x).res = s.res := rfl
@[simp] theorem State.setIe_digest (x : Bool) : (s.setIe x).digest = s.digest := rfl
@[simp] theorem State.setIe_engine (x : Bool) : (s.setIe x).engine = s.engine := rfl
@[simp] theorem State.setIe_agenda (x : Bool) : (s.setIe x).agenda = s.agenda := rfl
@[simp] theorem State.setIe_reply (x : Bool) : (s.setIe x).reply = s.reply := rfl

@[simp] theorem State.setMulcnt_build (x : Word) : (s.setMulcnt x).build = s.build := rfl
@[simp] theorem State.setMulcnt_status (x : Word) : (s.setMulcnt x).status = s.status := rfl
@[simp] theorem State.setMulcnt_exp (x : Word) : (s.setMulcnt x).exp = s.exp := rfl
@[simp] theorem State.setMulcnt_ie (x : Word) : (s.setMulcnt x).ie = s.ie := rfl
@[simp] theorem State.setMulcnt_mulcnt (x : Word) : (s.setMulcnt x).mulcnt = x := rfl
@[simp] theorem State.setMulcnt_mod (x : Word) : (s.setMulcnt x).mod = s.mod := rfl
@[simp] theorem State.setMulcnt_aux (x : Word) : (s.setMulcnt x).aux = s.aux := rfl
@[simp] theorem State.setMulcnt_opa (x : Word) : (s.setMulcnt x).opa = s.opa := rfl
@[simp] theorem State.setMulcnt_opb (x : Word) : (s.setMulcnt x).opb = s.opb := rfl
@[simp] theorem State.setMulcnt_res (x : Word) : (s.setMulcnt x).res = s.res := rfl
@[simp] theorem State.setMulcnt_digest (x : Word) : (s.setMulcnt x).digest = s.digest := rfl
@[simp] theorem State.setMulcnt_engine (x : Word) : (s.setMulcnt x).engine = s.engine := rfl
@[simp] theorem State.setMulcnt_agenda (x : Word) : (s.setMulcnt x).agenda = s.agenda := rfl
@[simp] theorem State.setMulcnt_reply (x : Word) : (s.setMulcnt x).reply = s.reply := rfl

@[simp] theorem State.setMod_build (x : List Byte) : (s.setMod x).build = s.build := rfl
@[simp] theorem State.setMod_status (x : List Byte) : (s.setMod x).status = s.status := rfl
@[simp] theorem State.setMod_exp (x : List Byte) : (s.setMod x).exp = s.exp := rfl
@[simp] theorem State.setMod_ie (x : List Byte) : (s.setMod x).ie = s.ie := rfl
@[simp] theorem State.setMod_mulcnt (x : List Byte) : (s.setMod x).mulcnt = s.mulcnt := rfl
@[simp] theorem State.setMod_mod (x : List Byte) : (s.setMod x).mod = x := rfl
@[simp] theorem State.setMod_aux (x : List Byte) : (s.setMod x).aux = s.aux := rfl
@[simp] theorem State.setMod_opa (x : List Byte) : (s.setMod x).opa = s.opa := rfl
@[simp] theorem State.setMod_opb (x : List Byte) : (s.setMod x).opb = s.opb := rfl
@[simp] theorem State.setMod_res (x : List Byte) : (s.setMod x).res = s.res := rfl
@[simp] theorem State.setMod_digest (x : List Byte) : (s.setMod x).digest = s.digest := rfl
@[simp] theorem State.setMod_engine (x : List Byte) : (s.setMod x).engine = s.engine := rfl
@[simp] theorem State.setMod_agenda (x : List Byte) : (s.setMod x).agenda = s.agenda := rfl
@[simp] theorem State.setMod_reply (x : List Byte) : (s.setMod x).reply = s.reply := rfl

@[simp] theorem State.setAux_build (x : List Word) : (s.setAux x).build = s.build := rfl
@[simp] theorem State.setAux_status (x : List Word) : (s.setAux x).status = s.status := rfl
@[simp] theorem State.setAux_exp (x : List Word) : (s.setAux x).exp = s.exp := rfl
@[simp] theorem State.setAux_ie (x : List Word) : (s.setAux x).ie = s.ie := rfl
@[simp] theorem State.setAux_mulcnt (x : List Word) : (s.setAux x).mulcnt = s.mulcnt := rfl
@[simp] theorem State.setAux_mod (x : List Word) : (s.setAux x).mod = s.mod := rfl
@[simp] theorem State.setAux_aux (x : List Word) : (s.setAux x).aux = x := rfl
@[simp] theorem State.setAux_opa (x : List Word) : (s.setAux x).opa = s.opa := rfl
@[simp] theorem State.setAux_opb (x : List Word) : (s.setAux x).opb = s.opb := rfl
@[simp] theorem State.setAux_res (x : List Word) : (s.setAux x).res = s.res := rfl
@[simp] theorem State.setAux_digest (x : List Word) : (s.setAux x).digest = s.digest := rfl
@[simp] theorem State.setAux_engine (x : List Word) : (s.setAux x).engine = s.engine := rfl
@[simp] theorem State.setAux_agenda (x : List Word) : (s.setAux x).agenda = s.agenda := rfl
@[simp] theorem State.setAux_reply (x : List Word) : (s.setAux x).reply = s.reply := rfl

@[simp] theorem State.setOpa_build (x : List Byte) : (s.setOpa x).build = s.build := rfl
@[simp] theorem State.setOpa_status (x : List Byte) : (s.setOpa x).status = s.status := rfl
@[simp] theorem State.setOpa_exp (x : List Byte) : (s.setOpa x).exp = s.exp := rfl
@[simp] theorem State.setOpa_ie (x : List Byte) : (s.setOpa x).ie = s.ie := rfl
@[simp] theorem State.setOpa_mulcnt (x : List Byte) : (s.setOpa x).mulcnt = s.mulcnt := rfl
@[simp] theorem State.setOpa_mod (x : List Byte) : (s.setOpa x).mod = s.mod := rfl
@[simp] theorem State.setOpa_aux (x : List Byte) : (s.setOpa x).aux = s.aux := rfl
@[simp] theorem State.setOpa_opa (x : List Byte) : (s.setOpa x).opa = x := rfl
@[simp] theorem State.setOpa_opb (x : List Byte) : (s.setOpa x).opb = s.opb := rfl
@[simp] theorem State.setOpa_res (x : List Byte) : (s.setOpa x).res = s.res := rfl
@[simp] theorem State.setOpa_digest (x : List Byte) : (s.setOpa x).digest = s.digest := rfl
@[simp] theorem State.setOpa_engine (x : List Byte) : (s.setOpa x).engine = s.engine := rfl
@[simp] theorem State.setOpa_agenda (x : List Byte) : (s.setOpa x).agenda = s.agenda := rfl
@[simp] theorem State.setOpa_reply (x : List Byte) : (s.setOpa x).reply = s.reply := rfl

@[simp] theorem State.setOpb_build (x : List Byte) : (s.setOpb x).build = s.build := rfl
@[simp] theorem State.setOpb_status (x : List Byte) : (s.setOpb x).status = s.status := rfl
@[simp] theorem State.setOpb_exp (x : List Byte) : (s.setOpb x).exp = s.exp := rfl
@[simp] theorem State.setOpb_ie (x : List Byte) : (s.setOpb x).ie = s.ie := rfl
@[simp] theorem State.setOpb_mulcnt (x : List Byte) : (s.setOpb x).mulcnt = s.mulcnt := rfl
@[simp] theorem State.setOpb_mod (x : List Byte) : (s.setOpb x).mod = s.mod := rfl
@[simp] theorem State.setOpb_aux (x : List Byte) : (s.setOpb x).aux = s.aux := rfl
@[simp] theorem State.setOpb_opa (x : List Byte) : (s.setOpb x).opa = s.opa := rfl
@[simp] theorem State.setOpb_opb (x : List Byte) : (s.setOpb x).opb = x := rfl
@[simp] theorem State.setOpb_res (x : List Byte) : (s.setOpb x).res = s.res := rfl
@[simp] theorem State.setOpb_digest (x : List Byte) : (s.setOpb x).digest = s.digest := rfl
@[simp] theorem State.setOpb_engine (x : List Byte) : (s.setOpb x).engine = s.engine := rfl
@[simp] theorem State.setOpb_agenda (x : List Byte) : (s.setOpb x).agenda = s.agenda := rfl
@[simp] theorem State.setOpb_reply (x : List Byte) : (s.setOpb x).reply = s.reply := rfl

@[simp] theorem State.setRes_build (x : List Byte) : (s.setRes x).build = s.build := rfl
@[simp] theorem State.setRes_status (x : List Byte) : (s.setRes x).status = s.status := rfl
@[simp] theorem State.setRes_exp (x : List Byte) : (s.setRes x).exp = s.exp := rfl
@[simp] theorem State.setRes_ie (x : List Byte) : (s.setRes x).ie = s.ie := rfl
@[simp] theorem State.setRes_mulcnt (x : List Byte) : (s.setRes x).mulcnt = s.mulcnt := rfl
@[simp] theorem State.setRes_mod (x : List Byte) : (s.setRes x).mod = s.mod := rfl
@[simp] theorem State.setRes_aux (x : List Byte) : (s.setRes x).aux = s.aux := rfl
@[simp] theorem State.setRes_opa (x : List Byte) : (s.setRes x).opa = s.opa := rfl
@[simp] theorem State.setRes_opb (x : List Byte) : (s.setRes x).opb = s.opb := rfl
@[simp] theorem State.setRes_res (x : List Byte) : (s.setRes x).res = x := rfl
@[simp] theorem State.setRes_digest (x : List Byte) : (s.setRes x).digest = s.digest := rfl
@[simp] theorem State.setRes_engine (x : List Byte) : (s.setRes x).engine = s.engine := rfl
@[simp] theorem State.setRes_agenda (x : List Byte) : (s.setRes x).agenda = s.agenda := rfl
@[simp] theorem State.setRes_reply (x : List Byte) : (s.setRes x).reply = s.reply := rfl

@[simp] theorem State.setDigest_build (x : List Byte) : (s.setDigest x).build = s.build := rfl
@[simp] theorem State.setDigest_status (x : List Byte) : (s.setDigest x).status = s.status := rfl
@[simp] theorem State.setDigest_exp (x : List Byte) : (s.setDigest x).exp = s.exp := rfl
@[simp] theorem State.setDigest_ie (x : List Byte) : (s.setDigest x).ie = s.ie := rfl
@[simp] theorem State.setDigest_mulcnt (x : List Byte) : (s.setDigest x).mulcnt = s.mulcnt := rfl
@[simp] theorem State.setDigest_mod (x : List Byte) : (s.setDigest x).mod = s.mod := rfl
@[simp] theorem State.setDigest_aux (x : List Byte) : (s.setDigest x).aux = s.aux := rfl
@[simp] theorem State.setDigest_opa (x : List Byte) : (s.setDigest x).opa = s.opa := rfl
@[simp] theorem State.setDigest_opb (x : List Byte) : (s.setDigest x).opb = s.opb := rfl
@[simp] theorem State.setDigest_res (x : List Byte) : (s.setDigest x).res = s.res := rfl
@[simp] theorem State.setDigest_digest (x : List Byte) : (s.setDigest x).digest = x := rfl
@[simp] theorem State.setDigest_engine (x : List Byte) : (s.setDigest x).engine = s.engine := rfl
@[simp] theorem State.setDigest_agenda (x : List Byte) : (s.setDigest x).agenda = s.agenda := rfl
@[simp] theorem State.setDigest_reply (x : List Byte) : (s.setDigest x).reply = s.reply := rfl

@[simp] theorem State.setEngine_build (x : Engine) : (s.setEngine x).build = s.build := rfl
@[simp] theorem State.setEngine_status (x : Engine) : (s.setEngine x).status = s.status := rfl
@[simp] theorem State.setEngine_exp (x : Engine) : (s.setEngine x).exp = s.exp := rfl
@[simp] theorem State.setEngine_ie (x : Engine) : (s.setEngine x).ie = s.ie := rfl
@[simp] theorem State.setEngine_mulcnt (x : Engine) : (s.setEngine x).mulcnt = s.mulcnt := rfl
@[simp] theorem State.setEngine_mod (x : Engine) : (s.setEngine x).mod = s.mod := rfl
@[simp] theorem State.setEngine_aux (x : Engine) : (s.setEngine x).aux = s.aux := rfl
@[simp] theorem State.setEngine_opa (x : Engine) : (s.setEngine x).opa = s.opa := rfl
@[simp] theorem State.setEngine_opb (x : Engine) : (s.setEngine x).opb = s.opb := rfl
@[simp] theorem State.setEngine_res (x : Engine) : (s.setEngine x).res = s.res := rfl
@[simp] theorem State.setEngine_digest (x : Engine) : (s.setEngine x).digest = s.digest := rfl
@[simp] theorem State.setEngine_engine (x : Engine) : (s.setEngine x).engine = x := rfl
@[simp] theorem State.setEngine_agenda (x : Engine) : (s.setEngine x).agenda = s.agenda := rfl
@[simp] theorem State.setEngine_reply (x : Engine) : (s.setEngine x).reply = s.reply := rfl

@[simp] theorem State.setAgenda_build (x : List Turn) : (s.setAgenda x).build = s.build := rfl
@[simp] theorem State.setAgenda_status (x : List Turn) : (s.setAgenda x).status = s.status := rfl
@[simp] theorem State.setAgenda_exp (x : List Turn) : (s.setAgenda x).exp = s.exp := rfl
@[simp] theorem State.setAgenda_ie (x : List Turn) : (s.setAgenda x).ie = s.ie := rfl
@[simp] theorem State.setAgenda_mulcnt (x : List Turn) : (s.setAgenda x).mulcnt = s.mulcnt := rfl
@[simp] theorem State.setAgenda_mod (x : List Turn) : (s.setAgenda x).mod = s.mod := rfl
@[simp] theorem State.setAgenda_aux (x : List Turn) : (s.setAgenda x).aux = s.aux := rfl
@[simp] theorem State.setAgenda_opa (x : List Turn) : (s.setAgenda x).opa = s.opa := rfl
@[simp] theorem State.setAgenda_opb (x : List Turn) : (s.setAgenda x).opb = s.opb := rfl
@[simp] theorem State.setAgenda_res (x : List Turn) : (s.setAgenda x).res = s.res := rfl
@[simp] theorem State.setAgenda_digest (x : List Turn) : (s.setAgenda x).digest = s.digest := rfl
@[simp] theorem State.setAgenda_engine (x : List Turn) : (s.setAgenda x).engine = s.engine := rfl
@[simp] theorem State.setAgenda_agenda (x : List Turn) : (s.setAgenda x).agenda = x := rfl
@[simp] theorem State.setAgenda_reply (x : List Turn) : (s.setAgenda x).reply = s.reply := rfl

@[simp] theorem State.setReply_build (x : Reply) : (s.setReply x).build = s.build := rfl
@[simp] theorem State.setReply_status (x : Reply) : (s.setReply x).status = s.status := rfl
@[simp] theorem State.setReply_exp (x : Reply) : (s.setReply x).exp = s.exp := rfl
@[simp] theorem State.setReply_ie (x : Reply) : (s.setReply x).ie = s.ie := rfl
@[simp] theorem State.setReply_mulcnt (x : Reply) : (s.setReply x).mulcnt = s.mulcnt := rfl
@[simp] theorem State.setReply_mod (x : Reply) : (s.setReply x).mod = s.mod := rfl
@[simp] theorem State.setReply_aux (x : Reply) : (s.setReply x).aux = s.aux := rfl
@[simp] theorem State.setReply_opa (x : Reply) : (s.setReply x).opa = s.opa := rfl
@[simp] theorem State.setReply_opb (x : Reply) : (s.setReply x).opb = s.opb := rfl
@[simp] theorem State.setReply_res (x : Reply) : (s.setReply x).res = s.res := rfl
@[simp] theorem State.setReply_digest (x : Reply) : (s.setReply x).digest = s.digest := rfl
@[simp] theorem State.setReply_engine (x : Reply) : (s.setReply x).engine = s.engine := rfl
@[simp] theorem State.setReply_agenda (x : Reply) : (s.setReply x).agenda = s.agenda := rfl
@[simp] theorem State.setReply_reply (x : Reply) : (s.setReply x).reply = x := rfl

@[simp] theorem State.resetOf_build (b : Build) : (State.resetOf b).build = b := rfl
@[simp] theorem State.resetOf_status (b : Build) : (State.resetOf b).status = Status.reset := rfl
@[simp] theorem State.resetOf_exp (b : Build) : (State.resetOf b).exp = 0 := rfl
@[simp] theorem State.resetOf_ie (b : Build) : (State.resetOf b).ie = false := rfl
@[simp] theorem State.resetOf_mulcnt (b : Build) : (State.resetOf b).mulcnt = 0 := rfl
@[simp] theorem State.resetOf_mod (b : Build) : (State.resetOf b).mod = List.replicate b.numBytes 0 := rfl
@[simp] theorem State.resetOf_aux (b : Build) : (State.resetOf b).aux = List.replicate b.auxWords.val 0 := rfl
@[simp] theorem State.resetOf_opa (b : Build) : (State.resetOf b).opa = List.replicate b.numBytes 0 := rfl
@[simp] theorem State.resetOf_opb (b : Build) : (State.resetOf b).opb = List.replicate b.numBytes 0 := rfl
@[simp] theorem State.resetOf_res (b : Build) : (State.resetOf b).res = List.replicate b.numBytes 0 := rfl
@[simp] theorem State.resetOf_digest (b : Build) : (State.resetOf b).digest = List.replicate 32 0 := rfl
@[simp] theorem State.resetOf_engine (b : Build) : (State.resetOf b).engine = .idle := rfl
@[simp] theorem State.resetOf_agenda (b : Build) : (State.resetOf b).agenda = [] := rfl
@[simp] theorem State.resetOf_reply (b : Build) : (State.resetOf b).reply = .none := rfl

end Sys2Proof.Machine
end

