-- ==== Sys2Proof/Laws/Engine.lean ====
section
/-! SUPPORT. Laws/Engine.lean: everything an engine turn can do (10_state.md R31, 30_encoding.md R66). -/
namespace Sys2Proof.Machine

/-- A job's end writes RES at most, MULCNT, VERDICT, BUSY, DONE and ENGINE, and RES only where the job has a value. -/
theorem finishJob_cases (x : JobResult) (s : State) : ∃ r, (x.value = none → r = s.res) ∧
    (∀ v, x.value = some v → r = leBytes s.build.numBytes v) ∧
    finishJob x s =
      { s with
        res := r, status := completeStatus x.verdict s.status, mulcnt := BitVec.ofNat 32 x.count, engine := .idle } := by
  unfold finishJob writeResult
  cases x.value with
  | none => exact ⟨s.res, fun _ => rfl, by simp, rfl⟩
  | some v => exact ⟨leBytes s.build.numBytes v, by simp, fun w hw => by rw [Option.some.inj hw], rfl⟩

/-- A completion turn does nothing on an idle engine and ends the job of a running one. -/
theorem completeTurn_cases (s : State) :
    (s.engine = .idle ∧ completeTurn s = s) ∨
    ∃ job l, s.engine = .run job l ∧ completeTurn s = finishJob (jobResult s.build job l) s := by
  unfold completeTurn
  cases s.engine with
  | idle => exact .inl ⟨rfl, rfl⟩
  | run job l => exact .inr ⟨job, l, rfl, rfl⟩

/-- A ladder turn does nothing, or one step of a running ladder that has one left. -/
theorem ladderTurn_cases (s : State) :
    ladderTurn s = s ∨
    ∃ job l, s.engine = .run job l ∧ (job.op = .modexp ∨ job.op = .verify) ∧ l.step < ladderLength job.e ∧
      ladderTurn s = s.setEngine (.run job (ladderStep job l)) := by
  unfold ladderTurn
  cases s.engine with
  | idle => exact .inl rfl
  | run job l => by_cases hl : l.step < ladderLength job.e <;> cases hop : job.op <;> simp [hl, hop]

/-- A job's result is the same after one more ladder step, as long as a step was left. -/
theorem jobResult_ladderStep (b : Build) (job : Job) (l : Ladder) (h : l.step < ladderLength job.e) :
    jobResult b job (ladderStep job l) = jobResult b job l := by
  unfold jobResult
  cases job.op <;> simp [modexpResult, verifyResult, ladderFinish_ladderStep _ _ h]

end Sys2Proof.Machine
end

