-- ==== Sys2Proof/Laws/Ops.lean ====
section
/-! SUPPORT. Laws/Ops.lean: for each shared operation, once, everything it can answer. -/
namespace Sys2Proof.Machine

theorem whenIdle_idle {s : State} (go : State → Result) (h : s.engine = .idle) : whenIdle s go = go (openCommand s) := by
  simp only [whenIdle, h]

theorem whenIdle_running {s : State} (go : State → Result) (h : s.engine ≠ .idle) : whenIdle s go = .next (overrun s) := by
  unfold whenIdle
  split
  · exact absurd ‹_› h
  · rfl

theorem exponentValid_iff (e : Word) : exponentValid e = true ↔ e = 3#32 ∨ e = 65537#32 := by simp [exponentValid]

theorem whenExponentValid_valid {s : State} (go : State → Result) (h : s.exp = 3#32 ∨ s.exp = 65537#32) :
    whenExponentValid s go = go s := by
  rw [whenExponentValid, if_pos ((exponentValid_iff _).2 h)]

theorem whenExponentValid_invalid {s : State} (go : State → Result) (h : ¬ (s.exp = 3#32 ∨ s.exp = 65537#32)) :
    whenExponentValid s go = .next (reject .invalidExponent s) := by
  rw [whenExponentValid, if_neg (mt (exponentValid_iff _).1 h)]

theorem acceptJob_pre {s : State} {op : JobOp} (h : pre s.build (snapshot op s) = true) :
    acceptJob op s = .next (start (snapshot op s) s) := by simp [acceptJob, h]

theorem acceptJob_not_pre {s : State} {op : JobOp} (h : pre s.build (snapshot op s) = false) :
    acceptJob op s = .fault (.preconditionViolated op) := by simp [acceptJob, h]

/-- Clearing the result status changes nothing a job is formed from. -/
@[simp] theorem snapshot_openCommand (op : JobOp) (s : State) : snapshot op (openCommand s) = snapshot op s := rfl

@[simp] theorem openCommand_build (s : State) : (openCommand s).build = s.build := rfl
@[simp] theorem openCommand_exp (s : State) : (openCommand s).exp = s.exp := rfl
@[simp] theorem openCommand_engine (s : State) : (openCommand s).engine = s.engine := rfl

/-- Everything an exec of a command but SRST can answer with a next state: dropped, rejected for its exponent, or started. -/
theorem exec_next_cases {i : Instr} {s t : State} (hi : i ≠ .srst) (h : exec i s = .next t) :
    (s.engine ≠ .idle ∧ t = overrun s) ∨
    (s.engine = .idle ∧ t = reject .invalidExponent (openCommand s)) ∨
    (s.engine = .idle ∧ ∃ op, pre s.build (snapshot op s) = true ∧
      (op = .modexp ∨ op = .verify → s.exp = 3#32 ∨ s.exp = 65537#32) ∧ t = start (snapshot op s) (openCommand s)) := by
  have accepted (op : JobOp) (he : op = .modexp ∨ op = .verify → s.exp = 3#32 ∨ s.exp = 65537#32)
      (hidle : s.engine = .idle) (ha : acceptJob op (openCommand s) = .next t) :
      s.engine = .idle ∧ ∃ op, pre s.build (snapshot op s) = true ∧
        (op = .modexp ∨ op = .verify → s.exp = 3#32 ∨ s.exp = 65537#32) ∧ t = start (snapshot op s) (openCommand s) := by
    unfold acceptJob at ha
    split at ha
    · exact ⟨hidle, op, by simpa using ‹_›, he, by simpa using ha.symm⟩
    · exact absurd ha (by simp)
  by_cases hidle : s.engine = .idle
  · cases i with
    | modmul =>
      rw [exec, execModmul, whenIdle_idle _ hidle] at h
      exact .inr (.inr (accepted _ (by simp) hidle h))
    | validate =>
      rw [exec, execValidate, whenIdle_idle _ hidle] at h
      exact .inr (.inr (accepted _ (by simp) hidle h))
    | modexp =>
      rw [exec, execModexp, whenIdle_idle _ hidle] at h
      by_cases he : s.exp = 3#32 ∨ s.exp = 65537#32
      · rw [whenExponentValid_valid _ (by simpa using he)] at h
        exact .inr (.inr (accepted _ (fun _ => he) hidle h))
      · rw [whenExponentValid_invalid _ (by simpa using he)] at h
        exact .inr (.inl ⟨hidle, by simpa using h.symm⟩)
    | verify =>
      rw [exec, execVerify, whenIdle_idle _ hidle] at h
      by_cases he : s.exp = 3#32 ∨ s.exp = 65537#32
      · rw [whenExponentValid_valid _ (by simpa using he)] at h
        exact .inr (.inr (accepted _ (fun _ => he) hidle h))
      · rw [whenExponentValid_invalid _ (by simpa using he)] at h
        exact .inr (.inl ⟨hidle, by simpa using h.symm⟩)
    | srst => exact absurd rfl hi
  · refine .inl ⟨hidle, ?_⟩
    cases i with
    | srst => exact absurd rfl hi
    | modmul | modexp | validate | verify =>
      simpa [exec, execModmul, execModexp, execValidate, execVerify, whenIdle_running _ hidle] using h.symm

/-- Everything the issue of a word can answer with a next state: reset, dropped, rejected, or started. -/
theorem issue_next_cases {w : Word} {s t : State} (h : issue w s = .next t) :
    t = softReset s ∨
    (s.engine ≠ .idle ∧ t = overrun s) ∨
    (∃ code, code ≠ .none ∧ s.engine = .idle ∧ t = reject code (openCommand s)) ∨
    (s.engine = .idle ∧ ∃ op, pre s.build (snapshot op s) = true ∧
      (op = .modexp ∨ op = .verify → s.exp = 3#32 ∨ s.exp = 65537#32) ∧ t = start (snapshot op s) (openCommand s)) := by
  unfold issue at h
  split at h
  · rename_i i _
    by_cases hi : i = .srst
    · subst hi
      exact .inl (by simpa [exec, execSrst] using h.symm)
    · rcases exec_next_cases hi h with h | h | h
      · exact .inr (.inl h)
      · exact .inr (.inr (.inl ⟨_, by simp, h⟩))
      · exact .inr (.inr (.inr h))
  · by_cases hs : s.engine = .idle
    · rw [whenIdle_idle _ hs] at h
      exact .inr (.inr (.inl ⟨.illegalCommand, by simp, hs, by simpa using h.symm⟩))
    · rw [whenIdle_running _ hs] at h
      exact .inr (.inl ⟨hs, by simpa using h.symm⟩)

/-- A step with a turn at the head of the agenda takes that turn. -/
@[simp] theorem step_turn (s : State) (t : Turn) (rest : List Turn) :
    step { s with agenda := t :: rest } = takeTurn t { s with agenda := rest } := rfl

theorem step_quiet {s : State} (h : s.agenda = []) : step s = .next (completeTurn s) := by
  simp [step, h, quietTurn]

theorem step_of_agenda {s : State} {t : Turn} {rest : List Turn} (h : s.agenda = t :: rest) :
    step s = takeTurn t (s.setAgenda rest) := by simp [step, h]

theorem completeTurn_idle {s : State} (h : s.engine = .idle) : completeTurn s = s := by simp [completeTurn, h]

theorem completeTurn_running {s : State} {job : Job} {l : Ladder} (h : s.engine = .run job l) :
    completeTurn s = finishJob (jobResult s.build job l) s := by simp [completeTurn, h]

/-- The CMD write reaches the command decoder. -/
@[simp] theorem busWrite_cmd (w : Word) (s : State) : busWrite 0x004#12 4 w s = issue w (s.setReply (.write .okay)) := by
  simp [busWrite, admitted, slotOf, writeSlot]

end Sys2Proof.Machine
end

