-- ==== Sys2Proof/Laws/PerInstr.lean ====
section
/-! SUPPORT. Laws/PerInstr.lean: one family of facts per instruction, about the instruction as syntax. -/
namespace Sys2Proof.Laws.Fields

/-- The two fields of an instruction's word: RSVD is zero, and OP is the code of the opcode map (30_encoding.md R55, R57). -/
def Statement (i : Instr) : Prop :=
  fieldRsvd (encode i) = 0 ∧
  (fieldOp (encode i)).toNat = match i with
    | .modmul => 0x1
    | .modexp => 0x2
    | .validate => 0x3
    | .verify => 0x4
    | .srst => 0xF

theorem modmul : Statement .modmul := by unfold Statement; decide
theorem modexp : Statement .modexp := by unfold Statement; decide
theorem validate : Statement .validate := by unfold Statement; decide
theorem verify : Statement .verify := by unfold Statement; decide
theorem srst : Statement .srst := by unfold Statement; decide

end Sys2Proof.Laws.Fields
end

