-- ==== Sys2Proof/Laws/Validator.lean ====
section
/-! SUPPORT. Laws/Validator.lean: what each check of the validator says of the padded bytes (42_validate.md R86 to R89). -/
namespace Sys2Proof.Machine

theorem checkDigest_iff (p d : List Byte) :
    checkDigest p d = true ↔ ∀ i, i < 32 → p[31 - i]? = some (d.getD i 0) := by
  simp [checkDigest, byteIs]

theorem checkHashPrefix_iff (p : List Byte) :
    checkHashPrefix p = true ↔ ∀ i, 32 ≤ i → i < 51 → p[i]? = some (hashPrefix.getD (i - 32) 0) := by
  simp [checkHashPrefix, byteIs, List.mem_range'_1]

theorem checkSeparator_iff (p : List Byte) : checkSeparator p = true ↔ p[51]? = some 0x00 := by
  simp [checkSeparator, byteIs]

theorem checkPadding_iff (numBytes : Nat) (p : List Byte) (h : 52 ≤ numBytes) :
    checkPadding numBytes p = true ↔ ∀ i, 52 ≤ i → i < numBytes → p[i]? = some (paddingByte (numBytes - 54) i) := by
  simp [checkPadding, byteIs, List.mem_range'_1, Nat.add_sub_cancel' h]

theorem validate_iff_checks (numBytes : Nat) (p d : List Byte) :
    validate numBytes p d = true ↔
      checkDigest p d = true ∧ checkHashPrefix p = true ∧ checkSeparator p = true ∧ checkPadding numBytes p = true := by
  simp [validate, and_assoc]

end Sys2Proof.Machine
end

