-- ==== Sys2Proof/Laws/Window.lean ====
section
/-! SUPPORT. Laws/Window.lean: where each register's offsets lead (20_memory.md R36), and everything a plain access can do. -/
namespace Sys2Proof

/-- The two legal widths (00_scope.md R7). -/
theorem Build.numBytes_cases (b : Build) : b.numBytes = 128 ∨ b.numBytes = 256 := by
  unfold Build.numBytes
  cases b.keySize <;> simp

theorem Build.nwords_cases (b : Build) : (b.numBytes = 128 ∧ b.nwords = 32) ∨ (b.numBytes = 256 ∧ b.nwords = 64) := by
  rcases b.numBytes_cases with h | h <;> simp [Build.nwords, h]

theorem Build.nwords_le (b : Build) : b.nwords ≤ 64 := by rcases b.nwords_cases with h | h <;> omega

end Sys2Proof

namespace Sys2Proof.Machine

theorem slotOf_mod {b : Build} {i : Nat} (h : i < b.nwords) : slotOf b (0x100 + 4 * i) = .mod i := by
  have hb := b.nwords_le
  have hi : (0x100 + 4 * i) % 0x100 / 4 = i := by omega
  simp only [slotOf, hi]
  repeat first | rw [if_neg (by omega)] | rw [if_pos (by omega)]

theorem slotOf_opa {b : Build} {i : Nat} (h : i < b.nwords) : slotOf b (0x200 + 4 * i) = .opa i := by
  have hb := b.nwords_le
  have hi : (0x200 + 4 * i) % 0x100 / 4 = i := by omega
  simp only [slotOf, hi]
  repeat first | rw [if_neg (by omega)] | rw [if_pos (by omega)]

theorem slotOf_opb {b : Build} {i : Nat} (h : i < b.nwords) : slotOf b (0x300 + 4 * i) = .opb i := by
  have hb := b.nwords_le
  have hi : (0x300 + 4 * i) % 0x100 / 4 = i := by omega
  simp only [slotOf, hi]
  repeat first | rw [if_neg (by omega)] | rw [if_pos (by omega)]

theorem slotOf_res {b : Build} {i : Nat} (h : i < b.nwords) : slotOf b (0x400 + 4 * i) = .res i := by
  have hb := b.nwords_le
  have hi : (0x400 + 4 * i) % 0x100 / 4 = i := by omega
  simp only [slotOf, hi]
  repeat first | rw [if_neg (by omega)] | rw [if_pos (by omega)]

theorem slotOf_digest {b : Build} {k : Nat} (h : k < 8) : slotOf b (0x500 + 4 * k) = .digest k := by
  have hk : (0x500 + 4 * k - 0x500) / 4 = k := by omega
  simp only [slotOf, hk]
  repeat first | rw [if_neg (by omega)] | rw [if_pos (by omega)]

theorem slotOf_aux {b : Build} {k : Nat} (h : k < b.auxWords.val) : slotOf b (0xC00 + 4 * k) = .aux k := by
  have hk : (0xC00 + 4 * k - 0xC00) / 4 = k := by omega
  simp only [slotOf, hk]
  repeat first | rw [if_neg (by omega)] | rw [if_pos (by omega)]

/-- An admitted access is one of size 4 at a multiple of 4 (20_memory.md R41). -/
theorem admitted_iff (off : Offset) (size : Nat) : admitted off size = true ↔ size = 4 ∧ off.toNat % 4 = 0 := by
  simp [admitted]

theorem busRead_admitted {off : Offset} (s : State) (h : off.toNat % 4 = 0) :
    busRead off 4 s = s.setReply (.read (readSlot s (slotOf s.build off.toNat)) .okay) := by simp [busRead, admitted, h]

theorem busWrite_admitted {off : Offset} (v : Word) (s : State) (h : off.toNat % 4 = 0) :
    busWrite off 4 v s = writeSlot v (s.setReply (.write .okay)) (slotOf s.build off.toNat) := by
  simp [busWrite, admitted, h]

/-- Only the offset of CMD is the command register. -/
theorem slotOf_eq_cmd {b : Build} {off : Nat} (h : slotOf b off = .cmd) : off = 0x004 := by
  unfold slotOf at h
  by_contra hne
  simp only [if_neg hne] at h
  repeat' split at h
  all_goals simp at h

/-- Everything a bus write is: malformed, the issue of a command word, or the write of another slot. -/
theorem busWrite_cases (off : Offset) (size : Nat) (v : Word) (s : State) :
    (admitted off size = false ∧ busWrite off size v s = .next (s.setReply (.write .error))) ∨
    (off = 0x004#12 ∧ size = 4 ∧ busWrite off size v s = issue v (s.setReply (.write .okay))) ∨
    (off ≠ 0x004#12 ∧ slotOf s.build off.toNat ≠ .cmd ∧
      busWrite off size v s = writeSlot v (s.setReply (.write .okay)) (slotOf s.build off.toNat)) := by
  by_cases h : admitted off size = true
  · obtain ⟨rfl, h4⟩ := (admitted_iff off size).1 h
    by_cases hcmd : off = 0x004#12
    · subst hcmd
      exact .inr (.inl ⟨rfl, rfl, rfl⟩)
    · exact .inr (.inr ⟨hcmd, fun hc => hcmd (BitVec.eq_of_toNat_eq (slotOf_eq_cmd hc)), busWrite_admitted v s h4⟩)
  · simp only [Bool.not_eq_true] at h
    exact .inl ⟨h, by simp [busWrite, h]⟩

/-- Everything a write at another offset than CMD's can do: it answers a next state that differs in one register at most. -/
theorem writeSlot_cases (v : Word) (s : State) (slot : Slot) (h : slot ≠ .cmd) :
    ∃ t, writeSlot v s slot = .next t ∧
      (t = s ∨ t = s.setStatus (w1cStatus v s.status) ∨ t = s.setExp v ∨ t = s.setIe (v.getLsbD 0) ∨
        (∃ i, t = s.setMod (setWordAt s.mod i v)) ∨ (∃ i, t = s.setOpa (setWordAt s.opa i v)) ∨
        (∃ i, t = s.setOpb (setWordAt s.opb i v)) ∨ (∃ k, t = s.setDigest (setWordAt s.digest k v)) ∨
        ∃ k, t = s.setAux (s.aux.set k v)) := by
  cases slot with
  | cmd => exact absurd rfl h
  | id | mulcnt | res | reserved => exact ⟨_, rfl, .inl rfl⟩
  | status => exact ⟨_, rfl, .inr (.inl rfl)⟩
  | exp => exact ⟨_, rfl, .inr (.inr (.inl rfl))⟩
  | irqen => exact ⟨_, rfl, .inr (.inr (.inr (.inl rfl)))⟩
  | mod i => exact ⟨_, rfl, .inr (.inr (.inr (.inr (.inl ⟨i, rfl⟩))))⟩
  | opa i => exact ⟨_, rfl, .inr (.inr (.inr (.inr (.inr (.inl ⟨i, rfl⟩)))))⟩
  | opb i => exact ⟨_, rfl, .inr (.inr (.inr (.inr (.inr (.inr (.inl ⟨i, rfl⟩))))))⟩
  | digest k => exact ⟨_, rfl, .inr (.inr (.inr (.inr (.inr (.inr (.inr (.inl ⟨k, rfl⟩)))))))⟩
  | aux k => exact ⟨_, rfl, .inr (.inr (.inr (.inr (.inr (.inr (.inr (.inr ⟨k, rfl⟩)))))))⟩

end Sys2Proof.Machine
end

