-- ==== Sys2Proof/Tests/Slice0.lean ====
section
/-! SUPPORT. Tests/Slice0.lean: the model's own tests. Every expected value is from the spec: 95_test_vectors.md (the vector
named) or a rule's worked example. The witness theorems show that each statement's hypotheses can be met together. -/
namespace Sys2Proof.Tests
open Sys2Proof Sys2Proof.Machine

/-! ## Decoding: words written out bit by bit from 30_encoding.md R55, R57 (RSVD, then OP) -/

theorem test_decode_modmul : decode (0b0000000000000000000000000000#28 ++ 0b0001#4) = .ok .modmul := by decide
theorem test_decode_modexp : decode (0b0000000000000000000000000000#28 ++ 0b0010#4) = .ok .modexp := by decide
theorem test_decode_validate : decode (0b0000000000000000000000000000#28 ++ 0b0011#4) = .ok .validate := by decide
theorem test_decode_verify : decode (0b0000000000000000000000000000#28 ++ 0b0100#4) = .ok .verify := by decide
theorem test_decode_srst : decode (0b0000000000000000000000000000#28 ++ 0b1111#4) = .ok .srst := by decide

/-- OP1, OP6, OP8 to OP11: every illegal word of the table. -/
theorem test_decode_illegal :
    ([0x00000000#32, 0x00000005#32, 0x00000006#32, 0x00000007#32, 0x00000008#32, 0x00000009#32, 0x0000000A#32, 0x0000000B#32,
      0x0000000C#32, 0x0000000D#32, 0x0000000E#32, 0x0000001F#32, 0x00000011#32, 0x80000002#32, 0xFFFFFFFF#32].all
      fun w => (decode w).toOption.isNone) = true := by decide

theorem test_decode_bytes :
    decodeBytes [0x0F, 0x00, 0x00, 0x00, 0xAA] = .ok (.srst, [0xAA]) ∧
    decodeBytes [0x00, 0x00, 0x00, 0x0F] = .error .reservedBits ∧ decodeBytes [0x01] = .error .notAWord := by decide

theorem test_table_words :
    decodeTableWord 32 1 = some .modmul ∧ decodeTableWord 32 2 = some .modexp ∧ decodeTableWord 32 3 = some .validate ∧
    decodeTableWord 32 4 = some .verify ∧ decodeTableWord 32 15 = some .srst ∧ decodeTableWord 32 31 = none := by decide

/-! ## WellFormed: one ill-formed term for each check, which the check refuses -/

theorem test_wf_reserved_bits : rsvdZero 0x0000001F#32 = false ∧ wfWord 0x0000001F#32 = false := by decide
theorem test_wf_op : opAssigned 0x00000005#32 = false ∧ wfWord 0x00000000#32 = false ∧ wfWord 0x0000000E#32 = false := by decide
theorem test_wf_access : wfAccess 0x002#12 4 = false ∧ wfAccess 0x008#12 2 = false ∧ wfAccess 0x00C#12 4 = true := by decide
theorem test_wf_build :
    wfBuildNumbers 64 0 = false ∧ wfBuildNumbers 128 257 = false ∧
    (buildOf 64 0).toOption = none ∧ (buildOf 128 257).toOption = none ∧
    (buildOf 256 66).toOption = some ⟨.bits2048, 66⟩ := by decide
theorem test_wf_instr : ([Instr.modmul, .modexp, .validate, .verify, .srst].all Instr.wf) = true := by decide

/-! ## Helpers -/

/-- A question about the next state, false of a fault and of a refusal. -/
def nextIs (r : Result) (p : State → Bool) : Bool :=
  match r with
  | .next t => p t
  | .fault _ => false
  | .refused _ => false

/-- A question about the fault. -/
def faultIs (r : Result) (f : Fault) : Bool :=
  match r with
  | .next _ => false
  | .fault g => f == g
  | .refused _ => false

/-- The reference build with a modulus, two operands and an exponent loaded. -/
def loaded (n a b : Nat) (e : Word) : State :=
  { State.reset with mod := leBytes 128 n, opa := leBytes 128 a, opb := leBytes 128 b, exp := e }

/-- The 2048-bit build with 256 AUX words. -/
def wideBuild : Build := ⟨.bits2048, 256⟩

/-- The larger build after reset. -/
def wide : State := State.resetOf wideBuild

/-- The bytes of a number in big-endian order, the order digests are printed in. -/
def digestOf (v : Nat) : List Byte := (leBytes 32 v).reverse

/-- The modulus, the signature and the digest of key K1 (95_test_vectors.md L2, VERIFY). -/
def keyOne : State :=
  { loaded
      0xaabb7b03b2e287b6f6bf9952a0286d603873fc144e06953352c5ba74a0e826c0e1cebfed83074d15de0f242345c2158221702681c4dd49b6ff67de4ee8b651cd59bbdd9e468b2aa37e85700cfa485cd3e4c7c1698c6a722ed3d9403b4526031cdfd7ee994a69718c8c04c76686407fadff51c085e642fc128bd72588f69103ed
      0x0f715dc67b89ceddeaea98fe96a2a7d037eb922136f18cb9cabe6bb314e767b1b7c423a100f173977fec9565c1cfba735f3116d6f4008ab9f6d1647ab00bb9b922999fef4546e998713e7bfdf0af06e967f7690fc567a87ee870c0145fc3a1b0eb3c38fd5a9db16f454ea5ffa21fbb7cf8dd8b99f69a84d0890b916364e69675
      0 65537#32 with
    digest := digestOf 0xdc9be58f7a8537d74b2c846f3921f854d5aac160fd397c0dfb2a5c9369ace955 }

/-- OPA = le(EM) and DIGEST of SHA-256("hello world"), NUMBYTES = 128 (V128.1). -/
def helloWorld : State :=
  { State.reset with
    opa := leBytes 128 0x0001ffffffffffffffffffffffffffffffffffffffffffffffffffffffffffffffffffffffffffffffffffffffffffffffffffffffffffffffffffffffffffffffffffffffffffffffffffff003031300d060960864801650304020105000420b94d27b9934d3e08a52e52d7da7dabfac484efe37a5380ee9088f7ace2efcde9
    digest := digestOf 0xb94d27b9934d3e08a52e52d7da7dabfac484efe37a5380ee9088f7ace2efcde9 }

/-- A state with a job of its own running. -/
def running (op : JobOp) (s : State) : State := acceptedState op s

/-! ## The instructions: at most two tests each -/

/-- 40_modmul.md R74: after the CMD write STATUS is 0x00000001 (P1). -/
theorem test_modmul_accepted :
    nextIs (step ((loaded 241 200 100 0).withFetchWord 32 1)) (fun t => statusWord t.status == 0x00000001#32) = true := by
  decide +kernel

/-- M1 and P1: 200 * 100 mod 241 = 0xEE, MULCNT 1, STATUS 0x00000002. -/
theorem test_modmul_completes :
    nextIs (step (running .modmul (loaded 241 200 100 0)))
      (fun t => intLE t.res == 0xEE && t.mulcnt == 1 && statusWord t.status == 0x00000002#32) = true := by decide +kernel

/-- X2: 5^65537 mod 241 = 214, MULCNT 17. -/
theorem test_modexp_completes :
    nextIs (step (running .modexp (loaded 241 5 0 65537#32)))
      (fun t => intLE t.res == 214 && t.mulcnt == 17 && statusWord t.status == 0x00000002#32) = true := by decide +kernel

/-- E11 and E12: with OPA = MOD, EXP = 17 is rejected (STATUS 0x0000001A) and EXP = 3 is the model fault. -/
theorem test_modexp_checks :
    nextIs (step ((loaded 241 241 0 17#32).withFetchWord 32 2)) (fun t => statusWord t.status == 0x0000001A#32) = true ∧
    faultIs (step ((loaded 241 241 0 3#32).withFetchWord 32 2)) (.preconditionViolated .modexp) = true := by decide +kernel

/-- V128.1: VERDICT 1, STATUS 0x00000006, MULCNT 0. -/
theorem test_validate_true :
    nextIs (step (running .validate helloWorld))
      (fun t => statusWord t.status == 0x00000006#32 && t.mulcnt == 0) = true := by decide +kernel

/-- V128.9: byte 126 changed from 0x01 to 0x00 gives STATUS 0x00000002. -/
theorem test_validate_false :
    nextIs (step (running .validate { helloWorld with opa := helloWorld.opa.set 126 0x00 }))
      (fun t => statusWord t.status == 0x00000002#32) = true := by decide +kernel

/-- K1 with EXP = 65537: VERDICT 1, MULCNT 17, RES unchanged. -/
theorem test_verify_true :
    nextIs (step (running .verify keyOne))
      (fun t => statusWord t.status == 0x00000006#32 && t.mulcnt == 17 && intLE t.res == 0) = true := by decide +kernel

/-- K1 with EXP = 3: VERDICT 0, MULCNT 2. -/
theorem test_verify_false :
    nextIs (step (running .verify { keyOne with exp := 3#32 }))
      (fun t => statusWord t.status == 0x00000002#32 && t.mulcnt == 2) = true := by decide +kernel

/-- P6: SRST while a MODEXP runs: STATUS 0, EXP 0, MOD 0, and the engine idle. -/
theorem test_srst_while_busy :
    nextIs (step ((running .modexp (loaded 241 5 0 3#32)).withFetchWord 32 15))
      (fun t => statusWord t.status == 0 && t.exp == 0 && intLE t.mod == 0 && t.engine == .idle) = true := by decide +kernel

/-- P6: 0x0000001F is illegal, not SRST: STATUS 0x0000002A. -/
theorem test_srst_near_miss :
    nextIs (step (State.reset.withFetchWord 32 0x1F)) (fun t => statusWord t.status == 0x0000002A#32) = true := by
  decide +kernel

/-! ## The window and the lifecycle -/

/-- B2: ID of the build NUMBYTES = 256, AUX_WORDS = 66. -/
theorem test_id : idWord ⟨.bits2048, 66⟩ = 0x00420100#32 := by decide

/-- B6: write 0x200, 0x04030201. -/
theorem test_byte_lanes :
    nextIs (step { State.reset with agenda := [.write 0x200#12 4 0x04030201#32] })
      (fun t => t.opa.take 5 == [0x01, 0x02, 0x03, 0x04, 0x00] && intLE t.opa == 0x04030201) = true := by decide +kernel

/-- B16: STATUS 0x00000006, written 0xFFFFFFFF, is 0x00000004. -/
theorem test_w1c : statusWord (w1cStatus 0xFFFFFFFF#32 (finishedStatus true false)) = 0x00000004#32 := by decide

/-- E7: a CMD write while running gives STATUS 0x00000101. -/
theorem test_overrun :
    nextIs (step ((running .modexp (loaded 241 5 0 3#32)).withFetchWord 32 1))
      (fun t => statusWord t.status == 0x00000101#32) = true := by decide +kernel

/-- The ladder trace of s = 5, n = 241, e = 65537: ACC is 205 after step 2 and 91 after step 15. -/
theorem test_ladder_trace :
    (ladderSteps (snapshot .modexp (loaded 241 5 0 65537#32)) 3 ladderStart).acc = 205 ∧
    (ladderSteps (snapshot .modexp (loaded 241 5 0 65537#32)) 16 ladderStart).acc = 91 := by decide +kernel

/-- P1 and P4: the first writes of LDBIG MOD, 241 and of LDDIG b94d27b9…. -/
theorem test_host_notation :
    (hostLdbig Build.reference .mod 241).take 2 = [.write 0x100#12 4 0x000000F1#32, .write 0x104#12 4 0#32] ∧
    (hostLdbig Build.reference .mod 241).length = 32 ∧
    (hostLddig helloWorld.digest).take 2 = [.write 0x500#12 4 0xb9274db9#32, .write 0x504#12 4 0x083e4d93#32] := by
  decide +kernel

/-! ## Witnesses: concrete states and operands that meet the statements' hypotheses -/

theorem loaded_inv (n a b : Nat) (e : Word) : (loaded n a b e).Inv := by
  refine ⟨⟨rfl, rfl, rfl, rfl, rfl, rfl⟩, (by decide : StatusInv Status.reset), .inl rfl, ?_, trivial⟩
  exact (by decide : false = true ↔ Engine.idle ≠ .idle)

theorem wide_inv : wide.Inv := by
  have sizes (b : Build) : SizeInv (State.resetOf b) := by simp [SizeInv, State.resetOf]
  refine ⟨sizes wideBuild, (by decide : StatusInv Status.reset), .inl rfl, ?_, trivial⟩
  exact (by decide : false = true ↔ Engine.idle ≠ .idle)

/-- A running MODEXP of the reference build meets the invariant. -/
theorem running_modexp_inv : (running .modexp (loaded 241 5 7 3#32)).Inv := by
  refine ⟨(loaded_inv 241 5 7 3#32).sizes, by decide, .inl rfl, by simp [BusyInv, running], ?_, by decide, rfl⟩
  refine ⟨by decide +kernel, rfl, rfl, rfl, rfl, ⟨⟨by decide +kernel, rfl⟩, by decide +kernel⟩, fun _ => .inl rfl⟩

/-- A running VERIFY whose ladder has done one step meets the invariant too. -/
theorem running_verify_inv :
    (running .verify (loaded 241 5 7 3#32)).Inv ∧ (ladderTurn (running .verify (loaded 241 5 7 3#32))).Inv := by
  have job : JobInv Build.reference (snapshot .verify (loaded 241 5 7 3#32)) :=
    ⟨by decide +kernel, rfl, rfl, rfl, rfl, ⟨⟨by decide +kernel, rfl⟩, by decide +kernel⟩, fun _ => .inl rfl⟩
  refine ⟨⟨(loaded_inv 241 5 7 3#32).sizes, by decide, .inl rfl, by simp [BusyInv, running], job, by decide, rfl⟩, ?_⟩
  exact ⟨(loaded_inv 241 5 7 3#32).sizes, by decide, .inl rfl, by decide, job, by decide, rfl⟩

theorem test_witness_StepRunsTheDecodedCommand : Instr.srst.wf = true ∧ decode 0x0000000F#32 = .ok .srst := by decide

theorem test_witness_IllegalWordIsRejected :
    ([0x00000000#32, 0x00000005#32, 0x0000000E#32, 0x00000010#32, 0xFFFFFFFF#32].all fun w =>
      decide (w ∉ [0x00000001#32, 0x00000002#32, 0x00000003#32, 0x00000004#32, 0x0000000F#32])) = true ∧
    State.reset.engine = .idle := by decide

theorem test_witness_FirstOutcomeThatApplies_overrun :
    0x00000000#32 ≠ 0x0000000F#32 ∧ (running .validate State.reset).engine ≠ .idle := by
  decide +kernel

theorem test_witness_FirstOutcomeThatApplies_illegal :
    State.reset.engine = .idle ∧ wfWord 0x00000010#32 = false := by decide

theorem test_witness_FirstOutcomeThatApplies_exponent :
    State.reset.engine = .idle ∧ usesLadder .modexp = true ∧ ¬ LegalExponent State.reset.exp := by decide

theorem test_witness_FirstOutcomeThatApplies_fault :
    (loaded 241 241 0 3#32).engine = .idle ∧ LegalExponent (loaded 241 241 0 3#32).exp ∧
    ¬ PreHolds Build.reference (snapshot .modexp (loaded 241 241 0 3#32)) := by
  refine ⟨rfl, .inl rfl, fun h => absurd h.2 ?_⟩
  decide +kernel

/-- The boundary: the smallest modulus, 2, and the largest signature below it. -/
theorem test_witness_FirstOutcomeThatApplies_accepted :
    (loaded 2 1 0 65537#32).engine = .idle ∧ LegalExponent (loaded 2 1 0 65537#32).exp ∧
    PreHolds Build.reference (snapshot .verify (loaded 2 1 0 65537#32)) := by
  refine ⟨rfl, .inr rfl, ⟨?_, rfl⟩, ?_⟩ <;> decide +kernel

theorem test_witness_OverrunDropsTheWord :
    (running .modmul (loaded 241 5 7 0)).engine ≠ .idle ∧ 0x0000001F#32 ≠ 0x0000000F#32 := by
  decide +kernel

theorem test_witness_InvalidExponentIsRejected :
    (loaded 241 5 7 65536#32).engine = .idle ∧ (loaded 241 5 7 65536#32).exp ≠ 3#32 ∧
    (loaded 241 5 7 65536#32).exp ≠ 65537#32 := by decide

theorem test_witness_RejectionIsImmediate :
    (loaded 241 5 7 17#32).Inv ∧ (loaded 241 5 7 17#32).engine = .idle ∧ wfWord 0x0000001F#32 = false ∧
    usesLadder .verify = true ∧ ¬ LegalExponent (loaded 241 5 7 17#32).exp :=
  ⟨loaded_inv _ _ _ _, rfl, by decide, rfl, by decide⟩

theorem test_witness_ModmulCompletes :
    (loaded 2 0 0 0).engine = .idle ∧ 2 ≤ intLE (loaded 2 0 0 0).mod ∧
    auxValid (loaded 2 0 0 0).build (intLE (loaded 2 0 0 0).mod) (loaded 2 0 0 0).aux = true := by
  refine ⟨rfl, ?_, rfl⟩
  decide +kernel

/-- One witness for MODEXP and VERIFY, whose hypotheses are the same, with each exponent. -/
theorem test_witness_ModexpCompletes_VerifyCompletes (e : Word) (he : LegalExponent e) :
    (loaded 241 240 0 e).engine = .idle ∧ LegalExponent (loaded 241 240 0 e).exp ∧ 2 ≤ intLE (loaded 241 240 0 e).mod ∧
    auxValid (loaded 241 240 0 e).build (intLE (loaded 241 240 0 e).mod) (loaded 241 240 0 e).aux = true ∧
    intLE (loaded 241 240 0 e).opa < intLE (loaded 241 240 0 e).mod := by
  refine ⟨rfl, he, ?_, rfl, ?_⟩
  · exact (by decide +kernel : 2 ≤ intLE (leBytes 128 241))
  · exact (by decide +kernel : intLE (leBytes 128 240) < intLE (leBytes 128 241))

theorem test_witness_ValidateCompletes : State.reset.engine = .idle := rfl

/-- n = 1 fails ModOK, and a signature equal to the modulus is not below it. -/
theorem test_witness_PreconditionViolationFaults :
    (loaded 1 0 0 3#32).engine = .idle ∧ LegalExponent (loaded 1 0 0 3#32).exp ∧ ¬ 2 ≤ intLE (loaded 1 0 0 3#32).mod ∧
    ¬ intLE (loaded 241 241 0 3#32).opa < intLE (loaded 241 241 0 3#32).mod := by decide +kernel

theorem test_witness_CommandFrame :
    ∃ t, Instr.validate ≠ .srst ∧ exec .validate State.reset = .next t := ⟨_, by decide, rfl⟩

theorem test_witness_CommandFrame_running :
    ∃ t, exec .modmul (running .validate State.reset) = .next t ∧ (running .validate State.reset).engine ≠ .idle :=
  ⟨_, rfl, by decide⟩

theorem test_witness_CompletionPerformsTheJob :
    (running .modexp (loaded 241 5 7 3#32)).Inv ∧
    (∃ job l, (running .modexp (loaded 241 5 7 3#32)).engine = .run job l) ∧
    (running .modexp (loaded 241 5 7 3#32)).agenda = [] := ⟨running_modexp_inv, ⟨_, _, rfl⟩, rfl⟩

theorem test_witness_CompletionFrame :
    (∃ t, step { running .validate State.reset with agenda := [.complete] } = .next t) ∧
    (∃ job l, (running .validate State.reset).engine = .run job l ∧ job.op = .validate) ∧
    (∃ t, step { State.reset with agenda := [.complete] } = .next t) ∧ State.reset.engine = .idle :=
  ⟨⟨_, rfl⟩, ⟨_, _, rfl, rfl⟩, ⟨_, rfl⟩, rfl⟩

theorem test_witness_CompletionReadsOnlyTheJob :
    let s := running .modmul (loaded 241 5 7 0)
    let t := { s with mod := leBytes 128 9, res := leBytes 128 8 }
    s.build = t.build ∧ s.engine = t.engine ∧ s.engine ≠ .idle := ⟨rfl, rfl, by simp [running]⟩

theorem test_witness_LadderTurnIsHidden :
    (∃ job l, (running .modexp (loaded 241 5 7 3#32)).engine = .run job l) ∧ State.reset.engine = .idle :=
  ⟨⟨_, _, rfl⟩, rfl⟩

theorem test_witness_LadderComputesThePower :
    let short := snapshot .modexp (loaded 241 240 0 3#32)
    let long := snapshot .modexp (loaded 241 0 0 65537#32)
    intLE short.a < short.n ∧ short.e = 3#32 ∧ intLE long.a < long.n ∧ long.e = 65537#32 := by decide +kernel

theorem test_witness_LadderCountIsFixed :
    (snapshot .verify (loaded 0 9 0 3#32)).e = 3#32 ∧ (snapshot .verify (loaded 0 9 0 65537#32)).e = 65537#32 := by decide

theorem test_witness_ProductFitsTheRegister :
    modOK Build.reference 2 [] = true ∧ 2 < 2 ^ Build.reference.modulusBits ∧
    modOK Build.reference (2 ^ 1024 - 1) [] = true ∧ 2 ^ 1024 - 1 < 2 ^ Build.reference.modulusBits := by decide +kernel

theorem test_witness_LastPaddingArmIsDead :
    (52 ≤ 52 ∧ 52 < Build.reference.numBytes) ∧ (52 ≤ 127 ∧ 127 < Build.reference.numBytes) ∧
    (52 ≤ 255 ∧ 255 < wide.build.numBytes) := by decide

theorem test_witness_ValidateIffEncodedMessage :
    helloWorld.opa.length = Build.reference.numBytes ∧ helloWorld.digest.length = 32 ∧ 0 < Build.reference.numBytes ∧
    127 < Build.reference.numBytes := by decide +kernel

theorem test_witness_ChangedByteIsRejected :
    helloWorld.opa.length = Build.reference.numBytes ∧ helloWorld.digest.length = 32 ∧ 127 < Build.reference.numBytes ∧
    validate Build.reference.numBytes helloWorld.opa helloWorld.digest = true ∧ helloWorld.opa[127]? ≠ some 0x01 := by
  decide +kernel

theorem test_witness_OneDigestPerMessage :
    helloWorld.digest.length = 32 ∧ validate Build.reference.numBytes helloWorld.opa helloWorld.digest = true := by
  decide +kernel

/-- One witness for VerdictIffPowerIsTheMessage and VerifyIsModexpThenValidate, whose hypotheses are the same, and for the two
bounds of the former: 241 lies below EMint(D) and below 2^(K-16). -/
theorem test_witness_VerdictIffPowerIsTheMessage_VerifyIsModexpThenValidate :
    (loaded 241 240 0 65537#32).Inv ∧ (loaded 241 240 0 65537#32).engine = .idle ∧
    LegalExponent (loaded 241 240 0 65537#32).exp ∧
    PreHolds (loaded 241 240 0 65537#32).build (snapshot .verify (loaded 241 240 0 65537#32)) ∧
    intLE (loaded 241 240 0 65537#32).mod ≤ emInt Build.reference (loaded 241 240 0 65537#32).digest ∧
    intLE (loaded 241 240 0 65537#32).mod < 2 ^ (Build.reference.modulusBits - 16) := by
  refine ⟨loaded_inv _ _ _ _, rfl, .inr rfl, ⟨⟨?_, rfl⟩, ?_⟩, ?_, ?_⟩ <;> decide +kernel

theorem test_witness_VerifyDependsOnTheJobAlone :
    let s := running .verify (loaded 241 5 7 3#32)
    let t := ladderTurn s
    s.Inv ∧ t.Inv ∧ s.build = t.build ∧
    (∃ job l l', job.op = .verify ∧ s.engine = .run job l ∧ t.engine = .run job l' ∧ l ≠ l') :=
  ⟨running_verify_inv.1, running_verify_inv.2, rfl, _, _, _, rfl, rfl, rfl, by decide +kernel⟩

theorem test_witness_MalformedAccessGetsError :
    ¬ (4 = 4 ∧ (0x002#12).toNat % 4 = 0) ∧ ¬ (2 = 4 ∧ (0x008#12).toNat % 4 = 0) := by decide

/-- The first and the last word of each data register, in the larger build. -/
theorem test_witness_DataRegistersRead_DataRegisterWrites :
    (0 < wide.build.nwords ∧ 63 < wide.build.nwords) ∧
    ((0x100#12).toNat = 0x100 + 4 * 0 ∧ (0x1FC#12).toNat = 0x100 + 4 * 63) ∧
    ((0x200#12).toNat = 0x200 + 4 * 0 ∧ (0x2FC#12).toNat = 0x200 + 4 * 63) ∧
    ((0x300#12).toNat = 0x300 + 4 * 0 ∧ (0x3FC#12).toNat = 0x300 + 4 * 63) ∧
    ((0x400#12).toNat = 0x400 + 4 * 0 ∧ (0x4FC#12).toNat = 0x400 + 4 * 63) ∧
    ((0x500#12).toNat = 0x500 + 4 * 0 ∧ (0x51C#12).toNat = 0x500 + 4 * 7) ∧
    (0 < wide.build.auxWords.val ∧ 255 < wide.build.auxWords.val) ∧
    ((0xC00#12).toNat = 0xC00 + 4 * 0 ∧ (0xFFC#12).toNat = 0xC00 + 4 * 255) := by decide

/-- The ends of every reserved range of the smaller build without AUX words. -/
theorem test_witness_ReservedOffsetsAreInert :
    ∀ off ∈ [0x018, 0x0FC, 0x180, 0x1FC, 0x280, 0x2FC, 0x380, 0x3FC, 0x480, 0x4FC, 0x520, 0xBFC, 0xC00, 0xFFC],
      off % 4 = 0 ∧ ReservedOffset Build.reference off := by
  simp [ReservedOffset, Build.reference, Build.nwords, Build.numBytes]

/-- EXP, and the first and last word of each stored register of the larger build. -/
theorem test_witness_WriteThenReadBack :
    wide.Inv ∧ ∀ off ∈ [0x00C, 0x100, 0x1FC, 0x200, 0x2FC, 0x300, 0x3FC, 0x500, 0x51C, 0xC00, 0xFFC],
      off % 4 = 0 ∧ PlainStoreOffset wideBuild off := by
  refine ⟨wide_inv, ?_⟩
  simp [PlainStoreOffset, wideBuild, Build.nwords, Build.numBytes]

theorem test_witness_PlainWriteFrame :
    ∃ t, 0x100#12 ≠ 0x004#12 ∧ step { running .modmul (loaded 241 5 7 0) with agenda := [.write 0x100#12 4 9#32] } = .next t :=
  ⟨_, by decide, rfl⟩

theorem test_witness_ByteLanes :
    (3 < 4 ∧ 4 * 31 + 3 < (leBytes 128 0).length) ∧ (3 < 4 * 1 ∨ 4 * 1 + 4 ≤ 3) ∧ (8 < 4 * 1 ∨ 4 * 1 + 4 ≤ 8) := by
  decide +kernel

/-- One witness for LittleEndianImage, BigIntegerOfWords and EveryWordWrittenGivesTheNumber, at the largest number. -/
theorem test_witness_LittleEndianImage_BigIntegerOfWords_EveryWordWrittenGivesTheNumber :
    (leBytes 128 (2 ^ 1024 - 1)).length = Build.reference.numBytes ∧ 2 ^ 1024 - 1 < 2 ^ Build.reference.modulusBits ∧
    127 < Build.reference.numBytes := by decide +kernel

theorem test_witness_IdentityIsHardwired : ∃ t, step State.reset = .next t := ⟨_, rfl⟩

theorem test_witness_InterruptFollowsDone :
    (∃ job l, (running .validate State.reset).engine = .run job l) ∧ (0x00000002#32).getLsbD 1 = true :=
  ⟨⟨_, _, rfl⟩, by decide⟩

theorem test_witness_IdleBlockKeepsItsState : State.reset.engine = .idle ∧ State.reset.agenda = [] := ⟨rfl, rfl⟩

theorem test_witness_ResultsStayUntilTheNextCommand :
    State.reset.engine = .idle ∧ Turn.read 0x400#12 4 ≠ .rst ∧ (∀ v, Turn.read 0x400#12 4 ≠ .write 0x004#12 4 v) ∧
    ∃ t, step { State.reset with agenda := [.read 0x400#12 4] } = .next t := ⟨rfl, by decide, by simp, _, rfl⟩

theorem test_witness_OnlyPreconditionsFault :
    faultIs (step (State.reset.withFetchWord 32 1)) (.preconditionViolated .modmul) = true := by decide +kernel

theorem test_witness_StepKeepsTheInvariant : State.reset.Inv ∧ ∃ t, step State.reset = .next t :=
  ⟨loaded_inv 0 0 0 0, _, rfl⟩

end Sys2Proof.Tests
end

section
/-! PROOFS. Proofs/LittleEndian.lean: int and le on arrays of NUMBYTES bytes (00_scope.md R9). -/
namespace Sys2Proof.Machine

/-- int(B) written as R9 writes it: byte i weighs 256^i. -/
theorem intLE_eq_sum (l : List Byte) :
    intLE l = ((List.range l.length).map fun i => (l.getD i 0).toNat * 256 ^ i).sum := by
  induction l with
  | nil => rfl
  | cons x xs ih =>
    have hweight (i : Nat) : (xs.getD i 0).toNat * 256 ^ (i + 1) = 256 * ((xs.getD i 0).toNat * 256 ^ i) := by ring
    simp only [intLE_cons, List.length_cons, List.range_succ_eq_map, List.map_cons, List.map_map, List.sum_cons,
      Function.comp_def, List.getD_cons_zero, List.getD_cons_succ, hweight, List.sum_map_mul_left, ← ih, pow_zero, mul_one]

/-- The numbers of K bits are the numbers of NUMBYTES bytes (00_scope.md R6). -/
theorem two_pow_modulusBits (b : Build) : 2 ^ b.modulusBits = 256 ^ b.numBytes := Nat.pow_mul 2 8 b.numBytes

/-- Byte i of le(v) as R9 writes it, by a shift. -/
theorem leBytes_getElem?_shiftRight (len v i : Nat) (h : i < len) :
    (leBytes len v)[i]? = some (BitVec.ofNat 8 (v >>> (8 * i))) := by
  rw [leBytes_getElem? len v i h, Nat.shiftRight_eq_div_pow, Nat.pow_mul]

/-- Settles O46: the sum by induction on the bytes, and the two round trips because v has at most NUMBYTES bytes. -/
theorem littleEndianImage : Obligations.LittleEndianImage := by
  intro b bs v hlen hv
  have hround : intLE (leBytes b.numBytes v) = v := by
    rw [intLE_leBytes, Nat.mod_eq_of_lt (two_pow_modulusBits b ▸ hv)]
  rw [← hlen] at hround ⊢
  exact ⟨intLE_eq_sum bs, leBytes_length _ v, leBytes_getElem?_shiftRight _ v, hround, leBytes_intLE bs⟩

end Sys2Proof.Machine
end

section
/-! PROOFS. Proofs/Identity.lean: ID's contents, and that no turn of any agent changes them (10_state.md R21). -/
namespace Sys2Proof.Machine

/-- ID's fields do not overlap: NUMBYTES stays below bit 16, and AUX_WORDS reaches bit 24 at most. -/
theorem idWord_toNat (b : Build) : (idWord b).toNat = b.numBytes + b.auxWords.val * 2 ^ 16 := by
  have hbytes : b.numBytes < 2 ^ 16 := by rcases b.numBytes_cases with h | h <;> omega
  have haux := b.auxWords.isLt
  rw [idWord, BitVec.toNat_or, BitVec.toNat_shiftLeft, BitVec.toNat_ofNat, BitVec.toNat_ofNat, Nat.shiftLeft_eq,
    Nat.mod_eq_of_lt (by omega), Nat.mod_eq_of_lt (a := b.auxWords.val) (by omega), Nat.mod_eq_of_lt (by omega),
    or_shifted _ _ _ hbytes]

@[simp] theorem busRead_build (off : Offset) (size : Nat) (s : State) : (busRead off size s).build = s.build := by
  unfold busRead
  split <;> rfl

@[simp] theorem ladderTurn_build (s : State) : (ladderTurn s).build = s.build := by
  rcases ladderTurn_cases s with h | ⟨job, l, -, -, -, h⟩ <;> rw [h]
  rfl

@[simp] theorem completeTurn_build (s : State) : (completeTurn s).build = s.build := by
  rcases completeTurn_cases s with ⟨-, h⟩ | ⟨job, l, -, h⟩
  · rw [h]
  · obtain ⟨r, -, -, hfinish⟩ := finishJob_cases (jobResult s.build job l) s
    rw [h, hfinish]

@[simp] theorem softReset_build (s : State) : (softReset s).build = s.build := rfl

theorem issue_build {w : Word} {s t : State} (h : issue w s = .next t) : t.build = s.build := by
  rcases issue_next_cases h with rfl | ⟨-, rfl⟩ | ⟨code, -, -, rfl⟩ | ⟨-, op, -, -, rfl⟩ <;> rfl

theorem writeSlot_build {v : Word} {s t : State} {slot : Slot} (hslot : slot ≠ .cmd) (h : writeSlot v s slot = .next t) :
    t.build = s.build := by
  obtain ⟨u, hu, hcases⟩ := writeSlot_cases v s slot hslot
  obtain rfl : u = t := Host.Outcome.next.inj (hu ▸ h)
  rcases hcases with rfl | rfl | rfl | rfl | ⟨i, rfl⟩ | ⟨i, rfl⟩ | ⟨i, rfl⟩ | ⟨k, rfl⟩ | ⟨k, rfl⟩ <;> rfl

theorem busWrite_build {off : Offset} {size : Nat} {v : Word} {s t : State} (h : busWrite off size v s = .next t) :
    t.build = s.build := by
  rcases busWrite_cases off size v s with ⟨-, hw⟩ | ⟨-, -, hw⟩ | ⟨-, hslot, hw⟩ <;> rw [hw] at h
  · exact Host.Outcome.next.inj h ▸ s.setReply_build _
  · exact (issue_build h).trans (s.setReply_build _)
  · exact (writeSlot_build hslot h).trans (s.setReply_build _)

theorem takeTurn_build {turn : Turn} {s t : State} (h : takeTurn turn s = .next t) : t.build = s.build := by
  cases turn with
  | write off size v => exact busWrite_build h
  | read off size => exact Host.Outcome.next.inj h ▸ busRead_build off size s
  | ladder => exact Host.Outcome.next.inj h ▸ ladderTurn_build s
  | complete => exact Host.Outcome.next.inj h ▸ completeTurn_build s
  | rst => exact Host.Outcome.next.inj h ▸ softReset_build s

theorem step_build {s t : State} (h : step s = .next t) : t.build = s.build := by
  cases hagenda : s.agenda with
  | nil => exact Host.Outcome.next.inj (step_quiet hagenda ▸ h) ▸ completeTurn_build s
  | cons turn rest => exact (takeTurn_build (step_of_agenda hagenda ▸ h)).trans (s.setAgenda_build rest)

/-- Settles O50: the fields from ID's number, the two accesses from the register map, and the frame of every turn. -/
theorem identityIsHardwired : Obligations.IdentityIsHardwired := by
  refine ⟨fun s rest => ⟨rfl, idWord_toNat s.build, ?_, ?_, fun v => rfl⟩, fun s t => step_build⟩
  all_goals
    have haux := s.build.auxWords.isLt
    rcases s.build.numBytes_cases with hbytes | hbytes <;> rw [idWord_toNat] <;> omega

end Sys2Proof.Machine
end

section
/-! PROOFS. Proofs/Reset.lean: the registers after rst and after SRST (10_state.md R34). -/
namespace Sys2Proof.Machine

/-- SRST is taken whatever the engine does (44_system.md R99). -/
@[simp] theorem issue_srst (s : State) : issue 0x0000000F#32 s = .next (softReset s) := rfl

/-- Settles O52: both turns are the soft reset, whose registers are those of the build's reset state. -/
theorem resetValues : Obligations.ResetValues := by
  intro s rest r
  have hsrst : step { s with agenda := .write 0x004#12 4 0x0000000F#32 :: rest } = .next { r with reply := .write .okay } := by
    rw [step_turn, takeTurn, busWrite_cmd, issue_srst]
    rfl
  have hstatus : statusWord r.status = 0 := by
    change statusWord Status.reset = 0
    decide
  exact ⟨rfl, hsrst, rfl, hstatus, rfl, rfl, rfl, rfl, rfl, rfl, rfl, rfl, rfl, rfl, rfl⟩

end Sys2Proof.Machine
end

section
/-! PROOFS. Proofs/Window.lean: malformed accesses (20_memory.md R41) and the reserved offsets (R44). -/
namespace Sys2Proof.Machine

theorem busRead_malformed {off : Offset} {size : Nat} (s : State) (h : ¬ (size = 4 ∧ off.toNat % 4 = 0)) :
    busRead off size s = s.setReply (.read 0 .error) := by
  rw [busRead, if_neg (mt (admitted_iff off size).1 h)]

theorem busWrite_malformed {off : Offset} {size : Nat} (v : Word) (s : State) (h : ¬ (size = 4 ∧ off.toNat % 4 = 0)) :
    busWrite off size v s = .next (s.setReply (.write .error)) := by
  rw [busWrite, if_neg (mt (admitted_iff off size).1 h)]

/-- Settles O36: the two accesses answer before they look at the register map. -/
theorem malformedAccessGetsError : Obligations.MalformedAccessGetsError := by
  intro s rest off size v hbad
  rw [step_turn, step_turn, takeTurn, takeTurn, busRead_malformed _ hbad, busWrite_malformed v _ hbad]
  exact ⟨rfl, rfl⟩

/-- The reserved rows of the map hold no register: in a big register's area the word index has reached NWORDS there, in
AUX's it has reached AUX_WORDS, and no other register's range meets them (20_memory.md R36). -/
theorem slotOf_reserved {b : Build} {off : Nat} (h : ReservedOffset b off) : slotOf b off = .reserved := by
  unfold ReservedOffset at h
  unfold slotOf
  repeat rw [if_neg (by omega)]

/-- Settles O42: an admitted access of a reserved offset reaches the reserved slot, which holds nothing. -/
theorem reservedOffsetsAreInert : Obligations.ReservedOffsetsAreInert := by
  intro s rest off v haligned hreserved
  have hslot : slotOf s.build off.toNat = .reserved := slotOf_reserved hreserved
  rw [step_turn, step_turn, takeTurn, takeTurn, busRead_admitted _ haligned, busWrite_admitted v _ haligned, hslot]
  exact ⟨rfl, rfl⟩

end Sys2Proof.Machine
end

section
/-! PROOFS. Proofs/Illegal.lean: the command words that start nothing: dropped while the engine runs, rejected while it is
idle (30_encoding.md R58, R63, R64). -/
namespace Sys2Proof

theorem decode_encode (i : Instr) : decode (encode i) = .ok i := by cases i <;> rfl

/-- Each command has no word but its own. -/
theorem eq_encode_of_decode_ok {w : Word} {i : Instr} (h : decode w = .ok i) : w = encode i := by
  unfold decode at h
  split_ifs at h <;> cases h
  all_goals assumption

theorem exists_decode_error {w : Word} (h : ∀ i, w ≠ encode i) : ∃ e, decode w = .error e := by
  cases hdecode : decode w with
  | ok i => exact absurd (eq_encode_of_decode_ok hdecode) (h i)
  | error e => exact ⟨e, rfl⟩

theorem encode_mem_commandWords (i : Instr) :
    encode i ∈ [0x00000001#32, 0x00000002#32, 0x00000003#32, 0x00000004#32, 0x0000000F#32] := by
  cases i <;> decide

theorem wfWord_encode (i : Instr) : wfWord (encode i) = true := by cases i <;> decide

theorem ne_encode_of_not_wfWord {w : Word} (hw : wfWord w = false) (i : Instr) : w ≠ encode i := by
  rintro rfl
  exact Bool.false_ne_true (hw.symm.trans (wfWord_encode i))

end Sys2Proof

namespace Sys2Proof.Machine

/-- The CMD write of a word is its issue, after the turn is taken and the write answered (20_memory.md R46). -/
theorem step_commandWrite (s : State) (w : Word) (rest : List Turn) :
    step { s with agenda := .write 0x004#12 4 w :: rest } = issue w { s with agenda := rest, reply := .write .okay } := by
  rw [step_turn, takeTurn, busWrite_cmd, State.setReply]

theorem issue_of_decode_ok {w : Word} {i : Instr} (s : State) (h : decode w = .ok i) : issue w s = exec i s := by
  rw [issue, h]

theorem issue_of_decode_error {w : Word} {e : IllegalWord} (s : State) (h : decode w = .error e) :
    issue w s = whenIdle s fun s => .next (reject .illegalCommand s) := by
  rw [issue, h]

theorem exec_running {i : Instr} {s : State} (hi : i ≠ .srst) (hrun : s.engine ≠ .idle) :
    exec i s = .next (overrun s) := by
  cases i with
  | srst => exact absurd rfl hi
  | modmul | modexp | validate | verify =>
    simp only [exec, execModmul, execModexp, execValidate, execVerify, whenIdle_running _ hrun]

/-- While the engine runs, every word but SRST's is dropped, legal or not (30_encoding.md R64). -/
theorem issue_running {w : Word} {s : State} (hw : w ≠ 0x0000000F#32) (hrun : s.engine ≠ .idle) :
    issue w s = .next (overrun s) := by
  cases hdecode : decode w with
  | ok i =>
    have hi : i ≠ .srst := by
      rintro rfl
      exact hw (eq_encode_of_decode_ok hdecode)
    rw [issue_of_decode_ok s hdecode, exec_running hi hrun]
  | error e => rw [issue_of_decode_error s hdecode, whenIdle_running _ hrun]

/-- With the engine idle, a word that is no command's is rejected (30_encoding.md R58, R62). -/
theorem issue_illegal {w : Word} {s : State} (hw : ∀ i, w ≠ encode i) (hidle : s.engine = .idle) :
    issue w s = .next (reject .illegalCommand (openCommand s)) := by
  obtain ⟨e, hdecode⟩ := exists_decode_error hw
  rw [issue_of_decode_error s hdecode, whenIdle_idle _ hidle]

/-- With the engine idle, a ladder command is rejected for its exponent before any job is formed (41_modexp.md R75). -/
theorem exec_invalidExponent {i : Instr} {s : State} (hi : i = .modexp ∨ i = .verify) (hexp : ¬ LegalExponent s.exp)
    (hidle : s.engine = .idle) : exec i s = .next (reject .invalidExponent (openCommand s)) := by
  rcases hi with rfl | rfl <;>
    simp only [exec, execModexp, execVerify, whenIdle_idle _ hidle, whenExponentValid_invalid (s := openCommand s) _ hexp]

theorem issue_invalidExponent {op : JobOp} {s : State} (hop : usesLadder op = true) (hexp : ¬ LegalExponent s.exp)
    (hidle : s.engine = .idle) : issue (jobWord op) s = .next (reject .invalidExponent (openCommand s)) := by
  cases op with
  | modexp => exact (issue_of_decode_ok s (decode_encode .modexp)).trans (exec_invalidExponent (.inl rfl) hexp hidle)
  | verify => exact (issue_of_decode_ok s (decode_encode .verify)).trans (exec_invalidExponent (.inr rfl) hexp hidle)
  | modmul | validate => cases hop

/-- A rejected CMD write: acceptance and rejection together write MULCNT and all of STATUS but BUSY
(30_encoding.md R62, R63). -/
theorem step_of_issue_reject {w : Word} {code : ErrCode} {s : State} {rest : List Turn} {busy : Bool}
    (hbusy : s.status.busy = busy)
    (h : issue w { s with agenda := rest, reply := .write .okay } =
      .next (reject code (openCommand { s with agenda := rest, reply := .write .okay }))) :
    step { s with agenda := .write 0x004#12 4 w :: rest } = .next
      { s with
        agenda := rest, reply := .write .okay, mulcnt := 0
        status := ⟨busy, true, false, true, code, false⟩ } := by
  subst hbusy
  exact (step_commandWrite s w rest).trans h

theorem State.Inv.busy_eq_false {s : State} (hinv : s.Inv) (hidle : s.engine = .idle) : s.status.busy = false :=
  Bool.eq_false_iff.2 fun hbusy => hinv.busy.1 hbusy hidle

/-- Settles O5: the decoder accepts no word but the five, and what it refuses an idle block rejects. -/
theorem illegalWordIsRejected : Obligations.IllegalWordIsRejected := by
  refine ⟨⟨decode_encode .modmul, decode_encode .modexp, decode_encode .validate, decode_encode .verify,
    decode_encode .srst⟩, fun w hw => ?_⟩
  have hillegal (i : Instr) : w ≠ encode i := fun h => hw (h ▸ encode_mem_commandWords i)
  exact ⟨exists_decode_error hillegal, fun s rest hidle => step_of_issue_reject rfl (issue_illegal hillegal hidle)⟩

/-- Settles O7: whatever the word decodes to, the running engine drops it. -/
theorem overrunDropsTheWord : Obligations.OverrunDropsTheWord := by
  intro s w rest hrun hw
  exact (step_commandWrite s w rest).trans (issue_running hw hrun)

/-- Settles O9: both causes end in the same rejection, and the invariant gives that BUSY was 0. -/
theorem rejectionIsImmediate : Obligations.RejectionIsImmediate := by
  intro s rest hinv hidle
  have hbusy := hinv.busy_eq_false hidle
  exact ⟨fun w hw => step_of_issue_reject hbusy (issue_illegal (ne_encode_of_not_wfWord hw) hidle),
    fun op hop hexp => step_of_issue_reject hbusy (issue_invalidExponent hop hexp hidle)⟩

end Sys2Proof.Machine
end

section
/-! PROOFS. Proofs/Product.lean: the result of one multiplication as a number and as a register (40_modmul.md R68). -/
namespace Sys2Proof.Machine

theorem modOK_iff (b : Build) (n : Nat) (aux : List Word) :
    modOK b n aux = true ↔ 2 ≤ n ∧ auxValid b n aux = true := by simp [modOK]

/-- A product is reduced, so under ModOK it is below the modulus. -/
theorem mul_lt {b : Build} {n : Nat} {aux : List Word} (x y : Nat) (h : modOK b n aux = true) : mul n aux x y < n := by
  obtain ⟨htwo, -⟩ := (modOK_iff b n aux).1 h
  exact Nat.mod_lt _ (by omega)

/-- Settles O25: the product is below n and so below 2^K, and R9's image of such a number reads back as that number. -/
theorem productFitsTheRegister : Obligations.ProductFitsTheRegister := by
  intro b n aux x y hmod hn
  have hlt := mul_lt x y hmod
  have hfits := hlt.trans hn
  obtain ⟨-, hlen, -, hread, -⟩ := littleEndianImage b _ _ (leBytes_length b.numBytes (mul n aux x y)) hfits
  exact ⟨hlt, hfits, hlen, hread.trans (mul_eq n aux x y)⟩

end Sys2Proof.Machine
end

section
/-! PROOFS. Proofs/Exponent.lean: the exponent check, and what the two ladders compute and in how many multiplications
(41_modexp.md R75, R77, R78). -/
namespace Sys2Proof.Machine

@[simp] theorem ladderLength_three : ladderLength 3#32 = 2 := by decide

@[simp] theorem ladderLength_long : ladderLength 65537#32 = 17 := by decide

/-- The short ladder squares once and multiplies by the signature (41_modexp.md R77). -/
theorem ladderFinish_acc_three {job : Job} (he : job.e = 3#32) :
    (ladderFinish job ladderStart).acc = intLE job.a ^ 3 % job.n :=
  ladderFinish_acc job 0 (by rw [he, ladderLength_three])

/-- Sixteen squarings of the long ladder give the power 2^16 (41_modexp.md R77). -/
theorem ladderSteps_acc_long {job : Job} (he : job.e = 65537#32) :
    (ladderSteps job 16 ladderStart).acc = intLE job.a ^ 65536 % job.n := by
  rw [show 65536 = 2 ^ (15 + 1) from rfl]
  exact ladderSteps_acc job 15 (by rw [he, ladderLength_long]; decide)

/-- The long ladder multiplies the power 2^16 by the signature once more (41_modexp.md R77). -/
theorem ladderFinish_acc_long {job : Job} (he : job.e = 65537#32) :
    (ladderFinish job ladderStart).acc = intLE job.a ^ 65537 % job.n := by
  rw [show 65537 = 2 ^ (15 + 1) + 1 from rfl]
  exact ladderFinish_acc job 15 (by rw [he, ladderLength_long])

/-- A whole ladder ends with a reduced product, below any modulus that is not 0 (41_modexp.md R77). -/
theorem ladderFinish_acc_lt {job : Job} (he : LegalExponent job.e) (hn : 0 < job.n) :
    (ladderFinish job ladderStart).acc < job.n := by
  rcases he with he | he
  · exact ladderFinish_acc_three he ▸ Nat.mod_lt _ hn
  · exact ladderFinish_acc_long he ▸ Nat.mod_lt _ hn

/-- Settles O22: the powers of the two ladders' accumulators; the modulus is not 0 because the signature is below it. -/
theorem ladderComputesThePower : Obligations.LadderComputesThePower := by
  intro job ha
  exact ⟨ladderFinish_acc_three, fun he => ⟨ladderSteps_acc_long he, ladderFinish_acc_long he⟩,
    fun he => ladderFinish_acc_lt he (Nat.zero_lt_of_lt ha)⟩

/-- Settles O8: the exponent check comes before the job, and its rejection with the acceptance writes all but BUSY. -/
theorem invalidExponentIsRejected : Obligations.InvalidExponentIsRejected := by
  intro s hidle h3 hlong
  have hexp : ¬ LegalExponent s.exp := not_or.2 ⟨h3, hlong⟩
  exact ⟨exec_invalidExponent (.inl rfl) hexp hidle, exec_invalidExponent (.inr rfl) hexp hidle⟩

/-- Settles O23: a whole ladder ends at its length, which the exponent alone decides. -/
theorem ladderCountIsFixed : Obligations.LadderCountIsFixed := by
  intro job
  rw [ladderFinish_step]
  exact ⟨fun he => he ▸ ladderLength_three, fun he => he ▸ ladderLength_long⟩

end Sys2Proof.Machine
end

section
/-! PROOFS. Proofs/Message.lean: the encoded message, byte by byte and as a number, and that the validator accepts it
and nothing else (42_validate.md R84, R85, R92). -/
namespace Sys2Proof.Machine

theorem hashPrefix_eq_reverse : hashPrefix = digestInfo.reverse := rfl

@[simp] theorem hashPrefix_length : hashPrefix.length = 19 := rfl

/-- Settles O27: the table's bytes are the decimal ones listed, and the standard prefix's bytes backwards. -/
theorem hashPrefixIsReversed : Obligations.HashPrefixIsReversed := ⟨rfl, hashPrefix_eq_reverse, hashPrefix_length⟩

theorem psLen_eq (b : Build) : b.psLen = b.numBytes - 54 := rfl

/-- The padded layout fills the message exactly (42_validate.md R85). -/
theorem psLen_add (b : Build) : b.psLen + 54 = b.numBytes := by
  have hpad := psLen_eq b
  rcases b.numBytes_cases with h | h <;> omega

/-- Settles O28: the layout fills the message, whose two legal lengths give the rest. -/
theorem paddingFillsTheMessage : Obligations.PaddingFillsTheMessage := by
  intro b
  have hfill := psLen_add b
  have hcases := b.numBytes_cases
  exact ⟨psLen_eq b, by omega, by omega, by omega, by omega, hcases⟩

/-- EM_LE(D) below its two markers, in array-index order: digest and prefix reversed, the separator, PS (42_validate.md
R92). -/
def messageBody (b : Build) (d : List Byte) : List Byte :=
  d.reverse ++ (hashPrefix ++ 0x00 :: List.replicate b.psLen 0xFF)

/-- EM_LE(D) written out as an array. -/
def encodedMessage (b : Build) (d : List Byte) : List Byte := messageBody b d ++ [0x01, 0x00]

theorem messageBody_length (b : Build) {d : List Byte} (hd : d.length = 32) :
    (messageBody b d).length = b.numBytes - 2 := by
  have hfill := psLen_add b
  simp only [messageBody, List.length_append, List.length_reverse, List.length_cons, List.length_replicate,
    hashPrefix_length]
  omega

theorem encodedMessage_length (b : Build) {d : List Byte} (hd : d.length = 32) :
    (encodedMessage b d).length = b.numBytes := by
  have hfill := psLen_add b
  rw [encodedMessage, List.length_append, messageBody_length b hd]
  simp only [List.length_cons, List.length_nil]
  omega

/-- Reading a string from its most significant end is reading its reversal from the least significant one. -/
theorem intBE_eq_intLE_reverse (bs : List Byte) : intBE bs = intLE bs.reverse := by
  induction bs using List.reverseRecOn with
  | nil => rfl
  | append_singleton bs x ih =>
    rw [List.reverse_append, List.reverse_singleton, List.singleton_append, intLE_cons, ← ih, intBE, intBE,
      List.foldl_append, Nat.add_comm]
    rfl

/-- EMint(D) is the number of that array. -/
theorem intLE_encodedMessage (b : Build) (d : List Byte) : intLE (encodedMessage b d) = emInt b d := by
  rw [emInt, intBE_eq_intLE_reverse, encodedMessage, messageBody, hashPrefix_eq_reverse]
  simp

/-- The array written out is le(EMint(D)). -/
theorem leBytes_emInt (b : Build) {d : List Byte} (hd : d.length = 32) :
    leBytes b.numBytes (emInt b d) = encodedMessage b d := by
  rw [← intLE_encodedMessage, ← encodedMessage_length b hd, leBytes_intLE]

/-! R92's bytes, one equation per row of its list. -/

theorem emByte_digest (b : Build) (d : List Byte) {i : Nat} (h : i < 32) : emByte b d i = d.getD (31 - i) 0 := if_pos h

theorem emByte_prefix (b : Build) (d : List Byte) {i : Nat} (hlow : 32 ≤ i) (hhigh : i < 51) :
    emByte b d i = hashPrefix.getD (i - 32) 0 := by
  rw [emByte, if_neg (by omega), if_pos (by omega)]

theorem emByte_separator (b : Build) (d : List Byte) : emByte b d 51 = 0x00 := rfl

theorem emByte_padding (b : Build) (d : List Byte) {i : Nat} (hlow : 52 ≤ i) (hhigh : i < b.numBytes - 2) :
    emByte b d i = 0xFF := by
  rw [emByte, if_neg (by omega), if_neg (by omega), if_neg (by omega), if_pos (by omega)]

theorem emByte_one (b : Build) (d : List Byte) : emByte b d (b.numBytes - 2) = 0x01 := by
  have hfill := psLen_add b
  rw [emByte, if_neg (by omega), if_neg (by omega), if_neg (by omega), if_neg (by omega), if_pos rfl]

theorem emByte_top (b : Build) (d : List Byte) : emByte b d (b.numBytes - 1) = 0x00 := by
  have hfill := psLen_add b
  rw [emByte, if_neg (by omega), if_neg (by omega), if_neg (by omega), if_neg (by omega), if_neg (by omega)]

/-- The array holds R92's byte at every index. -/
theorem encodedMessage_getElem? (b : Build) {d : List Byte} (hd : d.length = 32) {i : Nat} (hi : i < b.numBytes) :
    (encodedMessage b d)[i]? = some (emByte b d i) := by
  have hfill := psLen_add b
  have hbody := messageBody_length b hd
  have hrev : d.reverse.length = 32 := by rw [List.length_reverse, hd]
  rw [encodedMessage]
  obtain h | ⟨hlow, hhigh⟩ | rfl | ⟨hlow, hhigh⟩ | rfl | rfl : i < 32 ∨ (32 ≤ i ∧ i < 51) ∨ i = 51 ∨
      (52 ≤ i ∧ i < b.numBytes - 2) ∨ i = b.numBytes - 2 ∨ i = b.numBytes - 1 := by omega
  · rw [emByte_digest b d h, List.getElem?_append_left (by omega), messageBody, List.getElem?_append_left (by omega),
      List.getElem?_reverse (by omega), hd, List.getElem?_eq_getElem (by omega), List.getD_eq_getElem d 0 (by omega)]
  · have hindex : i - 32 < hashPrefix.length := by rw [hashPrefix_length]; omega
    rw [emByte_prefix b d hlow hhigh, List.getElem?_append_left (by omega), messageBody,
      List.getElem?_append_right (by omega), hrev, List.getElem?_append_left hindex, List.getElem?_eq_getElem hindex,
      List.getD_eq_getElem _ 0 hindex]
  · rw [emByte_separator, List.getElem?_append_left (by omega), messageBody, List.getElem?_append_right (by omega),
      hrev]
    rfl
  · rw [emByte_padding b d hlow hhigh, List.getElem?_append_left (by omega), messageBody,
      List.getElem?_append_right (by omega), hrev, List.getElem?_append_right (by rw [hashPrefix_length]; omega),
      hashPrefix_length, List.getElem?_cons, if_neg (by omega), List.getElem?_replicate, if_pos (by omega)]
  · rw [emByte_one, List.getElem?_append_right (by omega), hbody, Nat.sub_self]
    rfl
  · rw [emByte_top, List.getElem?_append_right (by omega), hbody, show b.numBytes - 1 - (b.numBytes - 2) = 1 by omega]
    rfl

/-- What step 4 checks is what R92 lists there. -/
theorem paddingByte_eq_emByte (b : Build) (d : List Byte) {i : Nat} (hlow : 52 ≤ i) (hi : i < b.numBytes) :
    paddingByte (b.numBytes - 54) i = emByte b d i := by
  have hfill := psLen_add b
  unfold paddingByte
  obtain hpad | rfl | rfl : i < b.numBytes - 2 ∨ i = b.numBytes - 2 ∨ i = b.numBytes - 1 := by omega
  · rw [emByte_padding b d hlow hpad, if_pos (by omega)]
  · rw [emByte_one, if_neg (by omega), if_pos (by omega)]
  · rw [emByte_top, if_neg (by omega), if_neg (by omega), if_pos (by omega)]

/-- The four steps together check every index once, each against R92's byte. -/
theorem validate_iff_emByte (b : Build) (p d : List Byte) :
    validate b.numBytes p d = true ↔ ∀ i, i < b.numBytes → p[i]? = some (emByte b d i) := by
  have hfill := psLen_add b
  rw [validate_iff_checks, checkDigest_iff, checkHashPrefix_iff, checkSeparator_iff, checkPadding_iff _ _ (by omega)]
  constructor
  · rintro ⟨hdigest, hprefix, hsep, hpad⟩ i hi
    obtain h | ⟨hlow, hhigh⟩ | rfl | hlow : i < 32 ∨ (32 ≤ i ∧ i < 51) ∨ i = 51 ∨ 52 ≤ i := by omega
    · rw [emByte_digest b d h, ← hdigest (31 - i) (by omega), Nat.sub_sub_self (by omega)]
    · rw [emByte_prefix b d hlow hhigh, hprefix i hlow hhigh]
    · rw [emByte_separator, hsep]
    · rw [hpad i hlow hi, paddingByte_eq_emByte b d hlow hi]
  · intro h
    refine ⟨fun i hi => ?_, fun i hlow hhigh => ?_, ?_, fun i hlow hi => ?_⟩
    · rw [h (31 - i) (by omega), emByte_digest b d (by omega), Nat.sub_sub_self (by omega)]
    · rw [h i (by omega), emByte_prefix b d hlow hhigh]
    · rw [h 51 (by omega), emByte_separator]
    · rw [h i hi, paddingByte_eq_emByte b d hlow hi]

/-- So of all messages of the right length the validator accepts the encoded one alone. -/
theorem validate_iff_eq_encodedMessage {b : Build} {p d : List Byte} (hp : p.length = b.numBytes) (hd : d.length = 32) :
    validate b.numBytes p d = true ↔ p = encodedMessage b d := by
  rw [validate_iff_emByte]
  constructor
  · intro h
    refine List.ext_getElem?' fun i hi => ?_
    have hlt : i < b.numBytes := by rwa [hp, encodedMessage_length b hd, max_self] at hi
    rw [h i hlt, encodedMessage_getElem? b hd hlt]
  · rintro rfl i hi
    exact encodedMessage_getElem? b hd hi

theorem intLE_append (xs ys : List Byte) : intLE (xs ++ ys) = intLE xs + 256 ^ xs.length * intLE ys := by
  induction xs with
  | nil => simp
  | cons x xs ih =>
    rw [List.cons_append, intLE_cons, intLE_cons, ih, List.length_cons]
    ring

/-- EMint(D) has 0x01 as its second highest byte and 0x00 as its highest. -/
theorem emInt_eq_body_add (b : Build) {d : List Byte} (hd : d.length = 32) :
    emInt b d = intLE (messageBody b d) + 256 ^ (b.numBytes - 2) := by
  rw [← intLE_encodedMessage, encodedMessage, intLE_append, messageBody_length b hd]
  simp

theorem emInt_bounds (b : Build) {d : List Byte} (hd : d.length = 32) :
    2 ^ (b.modulusBits - 16) ≤ emInt b d ∧ emInt b d < 2 ^ (b.modulusBits - 15) := by
  have hfill := psLen_add b
  have hbody : intLE (messageBody b d) < 256 ^ (b.numBytes - 2) := messageBody_length b hd ▸ intLE_lt _
  have hlow : 2 ^ (b.modulusBits - 16) = 256 ^ (b.numBytes - 2) := by
    rw [show b.modulusBits - 16 = 8 * (b.numBytes - 2) by unfold Build.modulusBits; omega, Nat.pow_mul]
  have hhigh : 2 ^ (b.modulusBits - 15) = 2 * 2 ^ (b.modulusBits - 16) := by
    rw [← Nat.pow_succ']
    congr 1
    unfold Build.modulusBits
    omega
  rw [emInt_eq_body_add b hd]
  omega

/-- Settles O30: the validator accepts the encoded message alone, and its number determines an array of that length. -/
theorem validateIffEncodedMessage : Obligations.ValidateIffEncodedMessage := by
  intro b p d hp hd
  have hvalid := validate_iff_eq_encodedMessage hp hd
  have hnumber : p = encodedMessage b d ↔ intLE p = emInt b d := by
    rw [← intLE_encodedMessage]
    exact ⟨congrArg intLE, eq_of_intLE_eq (hp.trans (encodedMessage_length b hd).symm)⟩
  rw [leBytes_emInt b hd]
  exact ⟨hvalid, hvalid.trans hnumber, fun i => encodedMessage_getElem? b hd, emInt_bounds b hd⟩

end Sys2Proof.Machine
end

section
/-! PROOFS. Proofs/Verify.lean: what VERIFY's acceptance and completion give, and that its verdict and its count are the
job's alone (43_verify.md R95, R96). -/
namespace Sys2Proof.Machine

/-- The machine's check of the precondition is R65's. -/
theorem pre_iff_preHolds (b : Build) (job : Job) : pre b job = true ↔ PreHolds b job := by
  unfold pre PreHolds
  cases job.op with
  | modmul => exact modOK_iff b job.n job.aux
  | modexp | verify => rw [Bool.and_eq_true, modOK_iff, decide_eq_true_iff]
  | validate => exact iff_of_true rfl trivial

/-- VERIFY is accepted where the engine is idle, the exponent is valid and the precondition holds (43_verify.md R97). -/
theorem exec_verify_accepted {s : State} (hidle : s.engine = .idle) (hexp : LegalExponent s.exp)
    (hpre : PreHolds s.build (snapshot .verify s)) :
    exec .verify s = .next (start (snapshot .verify s) (openCommand s)) := by
  rw [exec, execVerify, whenIdle_idle _ hidle, whenExponentValid_valid (s := openCommand s) _ hexp,
    acceptJob_pre (s := openCommand s) ((pre_iff_preHolds _ _).2 hpre), snapshot_openCommand]

/-- A job just started completes with its result from the ladder's start (30_encoding.md R66). -/
theorem completeTurn_start (job : Job) (s : State) :
    completeTurn (start job s) = finishJob (jobResult s.build job ladderStart) (start job s) :=
  completeTurn_running rfl

@[simp] theorem finishJob_status (x : JobResult) (s : State) :
    (finishJob x s).status = completeStatus x.verdict s.status := rfl

@[simp] theorem finishJob_mulcnt (x : JobResult) (s : State) : (finishJob x s).mulcnt = BitVec.ofNat 32 x.count := rfl

/-- The two ladders' powers as one: the exponent is the number in EXP (41_modexp.md R77). -/
theorem ladderFinish_acc_eq_pow {job : Job} (he : LegalExponent job.e) :
    (ladderFinish job ladderStart).acc = intLE job.a ^ job.e.toNat % job.n := by
  rcases he with he | he
  · rw [ladderFinish_acc_three he, he, show (3#32).toNat = 3 from rfl]
  · rw [ladderFinish_acc_long he, he, show (65537#32).toNat = 65537 from rfl]

/-- Of the numbers a register holds, the validator accepts the image of EMint(D) alone (42_validate.md R92). -/
theorem validate_leBytes_iff {b : Build} {v : Nat} {d : List Byte} (hv : v < 2 ^ b.modulusBits) (hd : d.length = 32) :
    validate b.numBytes (leBytes b.numBytes v) d = true ↔ v = emInt b d := by
  have hlen := leBytes_length b.numBytes v
  obtain ⟨-, -, -, hread, -⟩ := littleEndianImage b _ v hlen hv
  obtain ⟨-, hnumber, -⟩ := validateIffEncodedMessage b _ d hlen hd
  rw [hnumber, hread]

/-- A whole VERIFY job's verdict: the reduced power is below the modulus, so an array of NUMBYTES bytes holds all of it
(43_verify.md R95). -/
theorem verifyResult_verdict_iff {b : Build} {job : Job} (he : LegalExponent job.e) (hpos : 0 < job.n)
    (hn : job.n < 2 ^ b.modulusBits) (hd : job.d.length = 32) :
    (verifyResult b job ladderStart).verdict = true ↔ intLE job.a ^ job.e.toNat % job.n = emInt b job.d := by
  rw [verifyResult, validate_leBytes_iff ((ladderFinish_acc_lt he hpos).trans hn) hd, ladderFinish_acc_eq_pow he]

theorem State.Inv.intLE_mod_lt {s : State} (hinv : s.Inv) : intLE s.mod < 2 ^ s.build.modulusBits := by
  obtain ⟨hmod, -⟩ := hinv.sizes
  rw [two_pow_modulusBits, ← hmod]
  exact intLE_lt s.mod

theorem State.Inv.digest_length {s : State} (hinv : s.Inv) : s.digest.length = 32 := by
  obtain ⟨-, -, -, -, hdigest, -⟩ := hinv.sizes
  exact hdigest

/-- Settles O33: the verdict compares the power with EMint(D), and a power reduced below a modulus that is not above
EMint(D), as every modulus below 2^(K-16) is, never equals it. -/
theorem verdictIffPowerIsTheMessage : Obligations.VerdictIffPowerIsTheMessage := by
  intro s hinv hidle hexp hpre
  have haccept := exec_verify_accepted hidle hexp hpre
  obtain ⟨⟨htwo, -⟩, -⟩ := hpre
  have hpos : 0 < intLE s.mod := Nat.zero_lt_of_lt htwo
  have hverdict : (completeTurn (start (snapshot .verify s) (openCommand s))).status.verdict = true ↔
      intLE s.opa ^ s.exp.toNat % intLE s.mod = emInt s.build s.digest := by
    rw [completeTurn_start]
    exact verifyResult_verdict_iff (job := snapshot .verify s) hexp hpos hinv.intLE_mod_lt hinv.digest_length
  have hsmall (hle : intLE s.mod ≤ emInt s.build s.digest) :
      (completeTurn (start (snapshot .verify s) (openCommand s))).status.verdict = false :=
    Bool.eq_false_iff.2 fun h => ((Nat.mod_lt _ hpos).trans_le hle).ne (hverdict.1 h)
  obtain ⟨hlow, -⟩ := emInt_bounds s.build hinv.digest_length
  exact ⟨_, _, haccept, rfl, rfl, rfl, hverdict, hsmall, fun hmod => hsmall (hmod.le.trans hlow)⟩

/-- However far a job's ladder has come, the result is the whole ladder's (10_state.md R31). -/
theorem jobResult_of_ladderInv {b : Build} {job : Job} {l : Ladder} (h : LadderInv job l) :
    jobResult b job l = jobResult b job ladderStart := by
  unfold LadderInv at h
  split at h
  · obtain ⟨hle, htrack⟩ := h
    unfold jobResult modexpResult verifyResult
    rw [ladderFinish_of_onTrack job l hle htrack]
  · rw [h]

theorem State.Inv.ladderInv {s : State} {job : Job} {l : Ladder} (hinv : s.Inv) (hrun : s.engine = .run job l) :
    LadderInv job l := by
  have hengine := hinv.engine
  rw [hrun] at hengine
  obtain ⟨-, hladder⟩ := hengine
  exact hladder

/-- The completion of a reachable running state, its ladder's progress left out. -/
theorem completeTurn_of_inv {s : State} {job : Job} {l : Ladder} (hinv : s.Inv) (hrun : s.engine = .run job l) :
    completeTurn s = finishJob (jobResult s.build job ladderStart) s := by
  rw [completeTurn_running hrun, jobResult_of_ladderInv (hinv.ladderInv hrun)]

/-- Settles O35: both completions end the one job, from the ladder's start, in the one build. -/
theorem verifyDependsOnTheJobAlone : Obligations.VerifyDependsOnTheJobAlone := by
  intro s t job l l' hs ht hbuild _ hruns hrunt
  rw [completeTurn_of_inv hs hruns, completeTurn_of_inv ht hrunt, hbuild]
  exact ⟨rfl, rfl⟩

end Sys2Proof.Machine
end

section
/-! PROOFS. Proofs/Outcomes.lean: the outcomes of one CMD write, in the order of 60_exceptions.md R105. -/
namespace Sys2Proof.Machine

/-- Past the checks of the engine and of the exponent, a CMD write is the end of Issue alone (30_encoding.md R62). -/
theorem issue_jobWord_eq_acceptJob {op : JobOp} {s : State} (hidle : s.engine = .idle)
    (hexp : usesLadder op = true → LegalExponent s.exp) : issue (jobWord op) s = acceptJob op (openCommand s) := by
  cases op with
  | modmul =>
    rw [issue_of_decode_ok (w := jobWord .modmul) s (decode_encode .modmul), exec, execModmul, whenIdle_idle _ hidle]
  | validate =>
    rw [issue_of_decode_ok (w := jobWord .validate) s (decode_encode .validate), exec, execValidate, whenIdle_idle _ hidle]
  | modexp =>
    rw [issue_of_decode_ok (w := jobWord .modexp) s (decode_encode .modexp), exec, execModexp, whenIdle_idle _ hidle,
      whenExponentValid_valid (s := openCommand s) _ (hexp rfl)]
  | verify =>
    rw [issue_of_decode_ok (w := jobWord .verify) s (decode_encode .verify), exec, execVerify, whenIdle_idle _ hidle,
      whenExponentValid_valid (s := openCommand s) _ (hexp rfl)]

/-- A job whose precondition fails is the model's one fault (60_exceptions.md R103). -/
theorem issue_preconditionViolated {op : JobOp} {s : State} (hidle : s.engine = .idle)
    (hexp : usesLadder op = true → LegalExponent s.exp) (hpre : ¬ PreHolds s.build (snapshot op s)) :
    issue (jobWord op) s = .fault (.preconditionViolated op) := by
  have hfails : pre s.build (snapshot op s) = false := Bool.eq_false_iff.2 (mt (pre_iff_preHolds _ _).1 hpre)
  exact (issue_jobWord_eq_acceptJob hidle hexp).trans (acceptJob_not_pre (s := openCommand s) hfails)

/-- A job whose precondition holds starts, and STATUS is all cleared but BUSY (30_encoding.md R62). -/
theorem issue_accepted {op : JobOp} {s : State} (hidle : s.engine = .idle)
    (hexp : usesLadder op = true → LegalExponent s.exp) (hpre : PreHolds s.build (snapshot op s)) :
    issue (jobWord op) s = .next (acceptedState op s) := by
  have hholds : pre s.build (snapshot op s) = true := (pre_iff_preHolds _ _).2 hpre
  exact (issue_jobWord_eq_acceptJob hidle hexp).trans (acceptJob_pre (s := openCommand s) hholds)

/-- Settles O6: each outcome of the order, under the negation of those before it, by the lemma that says it. -/
theorem firstOutcomeThatApplies : Obligations.FirstOutcomeThatApplies := by
  intro s
  refine ⟨issue_srst s, fun _ => issue_running, fun hidle => ⟨?illegal, ?exponent, ?fault, ?accepted⟩⟩
  case illegal => exact fun _ hw => issue_illegal (ne_encode_of_not_wfWord hw) hidle
  case exponent => exact fun _ hop hexp => issue_invalidExponent hop hexp hidle
  case fault => exact fun _ => issue_preconditionViolated hidle
  case accepted => exact fun _ => issue_accepted hidle

end Sys2Proof.Machine
end

section
/-! PROOFS. Proofs/PlainWrite.lean: what a write keeps that does not reach the command decoder (20_memory.md R46). -/
namespace Sys2Proof.Machine

/-- What every such write keeps: the engine and its results, the lengths of the input registers, and all of STATUS but the
two W1C flags, which it can only clear. -/
structure PlainWrite (s t : State) : Prop where
  build  : t.build = s.build
  engine : t.engine = s.engine
  res    : t.res = s.res
  mulcnt : t.mulcnt = s.mulcnt
  agenda : t.agenda = s.agenda
  status : ∃ v, t.status = w1cStatus v s.status
  mod    : t.mod.length = s.mod.length
  opa    : t.opa.length = s.opa.length
  opb    : t.opb.length = s.opb.length
  digest : t.digest.length = s.digest.length
  aux    : t.aux.length = s.aux.length

/-- A word of zeros clears no flag. -/
@[simp] theorem w1cStatus_zero (st : Status) : w1cStatus 0 st = st := by simp [w1cStatus]

theorem PlainWrite.of_reply (s : State) (x : Reply) : PlainWrite s (s.setReply x) :=
  ⟨rfl, rfl, rfl, rfl, rfl, ⟨0, (w1cStatus_zero _).symm⟩, rfl, rfl, rfl, rfl, rfl⟩

/-- The answer that comes first is no register. -/
theorem PlainWrite.of_setReply {s t : State} {x : Reply} (h : PlainWrite (s.setReply x) t) : PlainWrite s t :=
  ⟨h.build, h.engine, h.res, h.mulcnt, h.agenda, h.status, h.mod, h.opa, h.opb, h.digest, h.aux⟩

theorem writeSlot_plain {v : Word} {s t : State} {slot : Slot} (hslot : slot ≠ .cmd) (h : writeSlot v s slot = .next t) :
    PlainWrite s t := by
  have hkept : ∃ v, s.status = w1cStatus v s.status := ⟨0, (w1cStatus_zero _).symm⟩
  obtain ⟨u, hu, hcases⟩ := writeSlot_cases v s slot hslot
  obtain rfl : u = t := Host.Outcome.next.inj (hu ▸ h)
  rcases hcases with rfl | rfl | rfl | rfl | ⟨i, rfl⟩ | ⟨i, rfl⟩ | ⟨i, rfl⟩ | ⟨k, rfl⟩ | ⟨k, rfl⟩
  case inr.inl => exact ⟨rfl, rfl, rfl, rfl, rfl, ⟨v, rfl⟩, rfl, rfl, rfl, rfl, rfl⟩
  all_goals exact ⟨rfl, rfl, rfl, rfl, rfl, hkept, by simp, by simp, by simp, by simp, by simp⟩

/-- A bus write is a plain one, unless it presents its word to the command decoder. -/
theorem busWrite_plain_or_issue {off : Offset} {size : Nat} {v : Word} {s t : State} (h : busWrite off size v s = .next t) :
    PlainWrite s t ∨ (off = 0x004#12 ∧ size = 4 ∧ issue v (s.setReply (.write .okay)) = .next t) := by
  rcases busWrite_cases off size v s with ⟨-, hw⟩ | ⟨hoff, hsize, hw⟩ | ⟨-, hslot, hw⟩ <;> rw [hw] at h
  · exact .inl (Host.Outcome.next.inj h ▸ PlainWrite.of_reply s _)
  · exact .inr ⟨hoff, hsize, h⟩
  · exact .inl (writeSlot_plain hslot h).of_setReply

/-- Settles O44: a write elsewhere is a plain one, and a W1C write touches DONE and OVR alone. -/
theorem plainWriteFrame : Obligations.PlainWriteFrame := by
  intro s t rest off size v hoff h
  obtain hplain | ⟨hcmd, -, -⟩ := busWrite_plain_or_issue (s := { s with agenda := rest }) h
  · obtain ⟨u, hstatus⟩ := hplain.status
    refine ⟨hplain.build, hplain.engine, hplain.res, hplain.mulcnt, hplain.agenda, ?_⟩
    rw [hstatus]
    exact ⟨rfl, rfl, rfl, rfl⟩
  · exact absurd hcmd hoff

end Sys2Proof.Machine
end

section
/-! PROOFS. Proofs/Invariant.lean: the invariant holds after reset, and every turn keeps it (10_state.md sections 2 to 6). -/
namespace Sys2Proof.Machine

/-! STATUS by itself: what each of its updates needs in order to keep R23's exclusions. -/

theorem StatusInv.w1c {st : Status} (h : StatusInv st) (v : Word) : StatusInv (w1cStatus v st) := by
  obtain ⟨hbusy, hcode, hverdict⟩ := h
  refine ⟨fun hb => ?_, hcode, hverdict⟩
  obtain ⟨hdone, hv, herr⟩ := hbusy hb
  exact ⟨by rw [w1cStatus, hdone, Bool.false_and], hv, herr⟩

theorem StatusInv.overrun {st : Status} (h : StatusInv st) : StatusInv (overrunStatus st) := h

/-- A rejection is recorded on an idle engine, whose command has just cleared the verdict. -/
theorem statusInv_reject {st : Status} {code : ErrCode} (hcode : code ≠ .none) (hbusy : st.busy = false) :
    StatusInv (rejectStatus code (acceptStatus st)) := by
  refine ⟨fun hb => ?_, iff_of_false Bool.false_ne_true.symm hcode, fun _ => rfl⟩
  exact absurd (hbusy.symm.trans hb) Bool.false_ne_true

theorem statusInv_start (st : Status) : StatusInv (startStatus (acceptStatus st)) :=
  ⟨fun _ => ⟨rfl, rfl, rfl⟩, iff_of_true rfl rfl, fun _ => rfl⟩

/-- A completion may set the verdict because a busy block shows no error. -/
theorem StatusInv.complete {st : Status} (h : StatusInv st) (hbusy : st.busy = true) (verdict : Bool) :
    StatusInv (completeStatus verdict st) := by
  obtain ⟨hflags, hcode, -⟩ := h
  obtain ⟨-, -, herr⟩ := hflags hbusy
  refine ⟨fun hb => absurd hb Bool.false_ne_true, hcode, fun he => ?_⟩
  exact absurd (herr.symm.trans he) Bool.false_ne_true

/-! The job and its ladder. -/

theorem usesLadder_iff (op : JobOp) : usesLadder op = true ↔ op = .modexp ∨ op = .verify := by
  cases op <;> simp [usesLadder]

theorem State.Inv.snapshot_jobInv {s : State} (hinv : s.Inv) {op : JobOp} (hpre : pre s.build (snapshot op s) = true)
    (hexp : op = .modexp ∨ op = .verify → LegalExponent s.exp) : JobInv s.build (snapshot op s) := by
  obtain ⟨-, hopa, hopb, -, hdigest, haux⟩ := hinv.sizes
  exact ⟨hinv.intLE_mod_lt, haux, hopa, hopb, hdigest, (pre_iff_preHolds _ _).1 hpre,
    fun hop => hexp ((usesLadder_iff op).1 hop)⟩

theorem ladderInv_start (job : Job) : LadderInv job ladderStart := by
  unfold LadderInv
  split
  · exact ⟨Nat.zero_le _, rfl⟩
  · rfl

theorem LadderInv.ladderStep {job : Job} {l : Ladder} (h : LadderInv job l) (hop : job.op = .modexp ∨ job.op = .verify)
    (hleft : l.step < ladderLength job.e) : LadderInv job (ladderStep job l) := by
  have huses := (usesLadder_iff job.op).2 hop
  rw [LadderInv, if_pos huses] at h ⊢
  obtain ⟨-, htrack⟩ := h
  refine ⟨hleft, ?_⟩
  rw [ladderStep_step, ladderSteps_succ, ← htrack]

theorem ladderLength_cases (e : Word) : ladderLength e = 2 ∨ ladderLength e = 17 := by
  unfold ladderLength
  split
  · exact .inr rfl
  · exact .inl rfl

/-- The multiplications a whole job makes (60_exceptions.md R111). -/
theorem jobResult_count_cases (b : Build) (job : Job) :
    (jobResult b job ladderStart).count = 0 ∨ (jobResult b job ladderStart).count = 1 ∨
      (jobResult b job ladderStart).count = 2 ∨ (jobResult b job ladderStart).count = 17 := by
  unfold jobResult
  cases job.op with
  | modmul => exact .inr (.inl rfl)
  | validate => exact .inl rfl
  | modexp | verify =>
    simp only [modexpResult, verifyResult, ladderFinish_step]
    exact .inr (.inr (ladderLength_cases job.e))

/-! The invariant over the parts of a step. -/

theorem State.Inv.setAgenda {s : State} (h : s.Inv) (x : List Turn) : (s.setAgenda x).Inv :=
  ⟨h.sizes, h.status, h.mulcnt, h.busy, h.engine⟩

theorem State.Inv.setReply {s : State} (h : s.Inv) (x : Reply) : (s.setReply x).Inv :=
  ⟨h.sizes, h.status, h.mulcnt, h.busy, h.engine⟩

theorem State.Inv.plainWrite {s t : State} (h : s.Inv) (hw : PlainWrite s t) : t.Inv := by
  obtain ⟨hbuild, hengine, hres, hmulcnt, -, ⟨v, hstatus⟩, hmod, hopa, hopb, hdigest, haux⟩ := hw
  refine ⟨?_, hstatus ▸ h.status.w1c v, ?_, ?_, ?_⟩
  · rw [SizeInv, hbuild, hmod, hopa, hopb, hres, hdigest, haux]
    exact h.sizes
  · rw [MulcntInv, hmulcnt]
    exact h.mulcnt
  · rw [BusyInv, hstatus, hengine]
    exact h.busy
  · rw [hbuild, hengine]
    exact h.engine

theorem resetOf_inv (b : Build) : (State.resetOf b).Inv := by
  refine ⟨?_, (by decide : StatusInv Status.reset), .inl rfl, ?_, trivial⟩
  · simp [SizeInv]
  · exact iff_of_false Bool.false_ne_true fun h => h rfl

theorem softReset_inv (s : State) : (softReset s).Inv := ((resetOf_inv s.build).setAgenda _).setReply _

theorem State.Inv.reject {s : State} (h : s.Inv) (hidle : s.engine = .idle) {code : ErrCode} (hcode : code ≠ .none) :
    (reject code (openCommand s)).Inv :=
  ⟨h.sizes, statusInv_reject hcode (h.busy_eq_false hidle), .inl rfl, h.busy, h.engine⟩

theorem State.Inv.start {s : State} (h : s.Inv) {job : Job} (hjob : JobInv s.build job) :
    (start job (openCommand s)).Inv :=
  ⟨h.sizes, statusInv_start s.status, h.mulcnt, iff_of_true rfl Engine.noConfusion, hjob, ladderInv_start job⟩

theorem State.Inv.issue {w : Word} {s t : State} (h : s.Inv) (hissue : issue w s = .next t) : t.Inv := by
  rcases issue_next_cases hissue with rfl | ⟨-, rfl⟩ | ⟨code, hcode, hidle, rfl⟩ | ⟨-, op, hpre, hexp, rfl⟩
  · exact softReset_inv s
  · exact ⟨h.sizes, h.status.overrun, h.mulcnt, h.busy, h.engine⟩
  · exact h.reject hidle hcode
  · exact h.start (h.snapshot_jobInv hpre hexp)

theorem State.Inv.busWrite {off : Offset} {size : Nat} {v : Word} {s t : State} (h : s.Inv)
    (hwrite : busWrite off size v s = .next t) : t.Inv := by
  rcases busWrite_plain_or_issue hwrite with hplain | ⟨-, -, hissue⟩
  · exact h.plainWrite hplain
  · exact (h.setReply _).issue hissue

theorem State.Inv.busRead {s : State} (h : s.Inv) (off : Offset) (size : Nat) : (busRead off size s).Inv := by
  unfold Machine.busRead
  split <;> exact h.setReply _

theorem State.Inv.ladderTurn {s : State} (h : s.Inv) : (ladderTurn s).Inv := by
  obtain hsame | ⟨job, l, hrun, hop, hleft, hstep⟩ := ladderTurn_cases s
  · rwa [hsame]
  · have hengine := h.engine
    rw [hrun] at hengine
    obtain ⟨hjob, hladder⟩ := hengine
    have hbusy : s.status.busy = true := h.busy.2 (by rw [hrun]; exact Engine.noConfusion)
    rw [hstep]
    exact ⟨h.sizes, h.status, h.mulcnt, iff_of_true hbusy Engine.noConfusion, hjob, hladder.ladderStep hop hleft⟩

theorem State.Inv.completeTurn {s : State} (h : s.Inv) : (completeTurn s).Inv := by
  obtain ⟨-, hsame⟩ | ⟨job, l, hrun, -⟩ := completeTurn_cases s
  · rwa [hsame]
  · have hbusy : s.status.busy = true := h.busy.2 (by rw [hrun]; exact Engine.noConfusion)
    obtain ⟨hmod, hopa, hopb, hres, hdigest, haux⟩ := h.sizes
    obtain ⟨r, hnone, hsome, hfinish⟩ := finishJob_cases (jobResult s.build job ladderStart) s
    have hr : r.length = s.build.numBytes := by
      cases hvalue : (jobResult s.build job ladderStart).value with
      | none => rw [hnone hvalue, hres]
      | some v => rw [hsome v hvalue, leBytes_length]
    have hcount : MulcntInv { s with mulcnt := BitVec.ofNat 32 (jobResult s.build job ladderStart).count } := by
      rcases jobResult_count_cases s.build job with hc | hc | hc | hc <;> simp [MulcntInv, hc]
    rw [completeTurn_of_inv h hrun, hfinish]
    exact ⟨⟨hmod, hopa, hopb, hr, hdigest, haux⟩, h.status.complete hbusy _, hcount,
      iff_of_false Bool.false_ne_true fun hne => hne rfl, trivial⟩

theorem State.Inv.takeTurn {turn : Turn} {s t : State} (h : s.Inv) (hturn : takeTurn turn s = .next t) : t.Inv := by
  cases turn with
  | write off size v => exact h.busWrite hturn
  | read off size => exact Host.Outcome.next.inj hturn ▸ h.busRead off size
  | ladder => exact Host.Outcome.next.inj hturn ▸ h.ladderTurn
  | complete => exact Host.Outcome.next.inj hturn ▸ h.completeTurn
  | rst => exact Host.Outcome.next.inj hturn ▸ softReset_inv s

/-- Settles O57: each turn keeps the invariant, and an empty agenda is the completion's. -/
theorem stepKeepsTheInvariant : Obligations.StepKeepsTheInvariant := by
  intro s t h hstep
  cases hagenda : s.agenda with
  | nil => exact Host.Outcome.next.inj (step_quiet hagenda ▸ hstep) ▸ h.completeTurn
  | cons turn rest => exact (h.setAgenda rest).takeTurn (step_of_agenda hagenda ▸ hstep)

/-- Settles O56: the reset values are in range and the engine is idle. -/
theorem resetMeetsTheInvariant : Obligations.ResetMeetsTheInvariant := ⟨resetOf_inv, resetOf_inv Build.reference⟩

end Sys2Proof.Machine
end

section
/-! PROOFS. Proofs/Decoder.lean: the decoder on every word, and the step that runs what it decodes (30_encoding.md R55, R57,
R58). -/
namespace Sys2Proof

/-- A legal word's number is its OP field, and so it is the word of the command the field names. -/
theorem exists_eq_encode_of_wfWord {w : Word} (h : wfWord w = true) : ∃ i, w = encode i := by
  simp only [wfWord, rsvdZero, opAssigned, Bool.and_eq_true, beq_iff_eq, List.contains_iff_mem, List.mem_cons,
    List.not_mem_nil, or_false] at h
  obtain ⟨hrsvd, hop⟩ := h
  have hnumber : w.toNat = w.toNat % 16 := by omega
  rcases hop with hop | hop | hop | hop | hop <;> rw [hop] at hnumber
  · exact ⟨.modmul, BitVec.eq_of_toNat_eq hnumber⟩
  · exact ⟨.modexp, BitVec.eq_of_toNat_eq hnumber⟩
  · exact ⟨.validate, BitVec.eq_of_toNat_eq hnumber⟩
  · exact ⟨.verify, BitVec.eq_of_toNat_eq hnumber⟩
  · exact ⟨.srst, BitVec.eq_of_toNat_eq hnumber⟩

theorem decode_eq_ok_iff (w : Word) (i : Instr) : decode w = .ok i ↔ w = encode i :=
  ⟨eq_encode_of_decode_ok, fun h => h ▸ decode_encode i⟩

/-- Settles O3: both sides say that the word is some command's encoding. -/
theorem decodeAcceptsExactlyLegalWords : Obligations.DecodeAcceptsExactlyLegalWords := by
  intro w
  refine ⟨⟨fun ⟨i, hi⟩ => ?_, fun hw => ?_⟩, decode_eq_ok_iff w⟩
  · exact eq_encode_of_decode_ok hi ▸ wfWord_encode i
  · obtain ⟨i, rfl⟩ := exists_eq_encode_of_wfWord hw
    exact ⟨i, decode_encode i⟩

/-- Settles O1: the five words are the commands' encodings, and the neighbours pass every comparison. -/
theorem commandWordsDecode : Obligations.CommandWordsDecode :=
  ⟨decode_encode .modmul, decode_encode .modexp, decode_encode .validate, decode_encode .verify, decode_encode .srst,
    by decide, by decide, by decide⟩

/-- The window's four bytes of a word decode to what the word decodes to (20_memory.md R37). -/
theorem decodeBytes_bytesOfWord {w : Word} {i : Instr} (rest : List Byte) (h : decode w = .ok i) :
    decodeBytes (bytesOfWord w ++ rest) = .ok (i, rest) := by
  simp only [bytesOfWord, List.cons_append, List.nil_append, decodeBytes, Machine.wordOfBytes_bytesOfWord, h]

/-- Settles O2: the bytes of an encoding are put together to that encoding again. -/
theorem decodeEncodeRoundTrip : Obligations.DecodeEncodeRoundTrip := by
  intro i rest
  exact ⟨by cases i <;> rfl, decode_encode i, decodeBytes_bytesOfWord rest (decode_encode i)⟩

@[simp] theorem tableWord_toNat (w : Word) : tableWord 32 w.toNat = w := by
  simp [tableWord, Nat.mod_eq_of_lt w.isLt]

end Sys2Proof

namespace Sys2Proof.Machine

/-- Settles O4: the CMD write is the word's issue, and withFetchWord puts that write at the head of the agenda. -/
theorem stepRunsTheDecodedCommand : Obligations.StepRunsTheDecodedCommand := by
  intro i w s rest _ hdecode
  have hrun (tail : List Turn) : step { s with agenda := .write 0x004#12 4 w :: tail } =
      exec i { s with agenda := tail, reply := .write .okay } := by
    rw [step_commandWrite, issue_of_decode_ok _ hdecode]
  refine ⟨hrun rest, ?_⟩
  rw [State.withFetchWord, tableWord_toNat]
  exact hrun s.agenda

end Sys2Proof.Machine
end

section
/-! PROOFS. Proofs/Ladder.lean: the machine's ladder is the loop of 41_modexp.md R76, and its calls are R79's. -/
namespace Sys2Proof.Machine

/-- One square of R76's loop: the accumulator and the count. -/
def squareOnce (job : Job) (x : Nat × Nat) : Nat × Nat := (mul job.n job.aux x.1 x.1, x.2 + 1)

/-- The first square of R76 and k more. -/
def squaresR76 (job : Job) (k : Nat) : Nat × Nat :=
  (List.range' 1 k).foldl (fun x _ => squareOnce job x) (mul job.n job.aux (intLE job.a) (intLE job.a), 1)

theorem squaresR76_succ (job : Job) (k : Nat) : squaresR76 job (k + 1) = squareOnce job (squaresR76 job k) := by
  rw [squaresR76, List.range'_1_concat, List.foldl_append]
  rfl

/-- Short of the last step the machine's ladder squares as the loop does. -/
theorem ladderSteps_eq_squaresR76 (job : Job) (k : Nat) (hk : k + 1 < ladderLength job.e) :
    ladderSteps job (k + 1) ladderStart = ⟨(squaresR76 job k).2, (squaresR76 job k).1⟩ := by
  induction k with
  | zero => rfl
  | succ k ih =>
    have hstep : (ladderSteps job (k + 1) ladderStart).step = k + 1 := by simp [ladderStart]
    have hcall : ladderCall job.e (k + 1) = .squareAcc := by
      rw [ladderCall, if_neg (Nat.succ_ne_zero k), if_pos hk]
    rw [ladderSteps_succ, ladderStep, hstep, hcall, ih (by omega), squaresR76_succ]
    simp only [squareOnce, performCall, Ladder.mk.injEq, and_true]
    rw [← hstep, ih (by omega)]

/-- The last step multiplies what the squares left by the signature. -/
theorem ladderFinish_eq_timesSignature (job : Job) (k : Nat) (hk : k + 2 = ladderLength job.e) :
    ((ladderFinish job ladderStart).acc, (ladderFinish job ladderStart).step) =
      (mul job.n job.aux (squaresR76 job k).1 (intLE job.a), (squaresR76 job k).2 + 1) := by
  have hsquares := ladderSteps_eq_squaresR76 job k (by omega)
  have hcount : (squaresR76 job k).2 = k + 1 := by
    simpa [ladderStart] using (congrArg Ladder.step hsquares).symm
  have hcall : ladderCall job.e (k + 1) = .timesSignature := by simp [ladderCall, ← hk]
  have hlast : ladderFinish job ladderStart = ladderStep job (ladderSteps job (k + 1) ladderStart) := by
    rw [ladderFinish, ← ladderSteps_succ, ← hk]
    rfl
  rw [hlast, hsquares, ladderStep, hcount, hcall]
  rfl

/-- Settles O21: R76 squares 15 more times exactly where the machine's ladder has 17 steps. -/
theorem ladderFollowsTheLoop : Obligations.LadderFollowsTheLoop := by
  intro job
  by_cases he : job.e = 65537#32
  · rw [ladderFinish_eq_timesSignature job 15 (by rw [he, ladderLength_long]), ladderR76, if_pos he]
    rfl
  · rw [ladderFinish_eq_timesSignature job 0 (by rw [ladderLength, if_neg he]), ladderR76, if_neg he]
    rfl

/-- Settles O24: a closed computation over the 2 and the 17 step indices. -/
theorem ladderShapeIsFixed : Obligations.LadderShapeIsFixed := by
  unfold Obligations.LadderShapeIsFixed
  decide

/-- Settles O26: the product of numbers commutes, and MUL drops aux. -/
theorem productIsPure : Obligations.ProductIsPure := by
  intro n aux aux' x y
  rw [mul_eq, mul_eq, mul_eq, Nat.mul_comm]
  exact ⟨rfl, rfl⟩

end Sys2Proof.Machine
end

section
/-! PROOFS. Proofs/Commands.lean: each command's acceptance, fault and completion (30_encoding.md R62 to R66). -/
namespace Sys2Proof.Machine

/-- The command of a job (10_state.md R30). -/
def JobOp.instr : JobOp → Instr
  | .modmul => .modmul
  | .modexp => .modexp
  | .validate => .validate
  | .verify => .verify

theorem encode_instr (op : JobOp) : encode op.instr = jobWord op := by cases op <;> rfl

/-- A command's exec is the issue of its word. -/
theorem exec_instr (op : JobOp) (s : State) : exec op.instr s = issue (jobWord op) s := by
  rw [← encode_instr, issue_of_decode_ok s (decode_encode op.instr)]

section Idle
variable {op : JobOp} {s : State} (hidle : s.engine = .idle) (hexp : usesLadder op = true → LegalExponent s.exp)
include hidle hexp

theorem exec_accepted (hpre : PreHolds s.build (snapshot op s)) : exec op.instr s = .next (acceptedState op s) := by
  rw [exec_instr, issue_accepted hidle hexp hpre]

theorem exec_preconditionViolated (hpre : ¬ PreHolds s.build (snapshot op s)) :
    exec op.instr s = .fault (.preconditionViolated op) := by
  rw [exec_instr, issue_preconditionViolated hidle hexp hpre]

end Idle

section Complete
variable {op : JobOp} {s : State} {x : JobResult} (hresult : jobResult s.build (snapshot op s) ladderStart = x)
include hresult

/-- An accepted job completes with its result from the ladder's start. -/
theorem completeTurn_accepted : completeTurn (acceptedState op s) = finishJob x (acceptedState op s) := hresult ▸ rfl

/-- So does the step whose turn is the completion. -/
theorem step_complete_accepted (rest : List Turn) :
    step { acceptedState op s with agenda := .complete :: rest } =
      .next (finishJob x { acceptedState op s with agenda := rest }) := hresult ▸ rfl

end Complete

/-- A legal exponent's ladder makes 2 multiplications or 17 (41_modexp.md R78). -/
theorem mulcnt_of_ladderLength {e : Word} (he : LegalExponent e) :
    BitVec.ofNat 32 (ladderLength e) = if e = 3#32 then 2 else 17 := by
  rcases he with rfl | rfl <;> decide

/-- A whole MODEXP job gives the power and its ladder's length. -/
theorem modexpResult_start {job : Job} (he : LegalExponent job.e) :
    modexpResult job ladderStart = ⟨some (intLE job.a ^ job.e.toNat % job.n), false, ladderLength job.e⟩ := by
  rw [modexpResult, ladderFinish_acc_eq_pow he, ladderFinish_step]

/-- A whole VERIFY job validates the power's bytes. -/
theorem verifyResult_start (b : Build) {job : Job} (he : LegalExponent job.e) :
    verifyResult b job ladderStart =
      ⟨none, validate b.numBytes (leBytes b.numBytes (intLE job.a ^ job.e.toNat % job.n)) job.d, ladderLength job.e⟩ := by
  rw [verifyResult, ladderFinish_acc_eq_pow he, ladderFinish_step]

/-- Settles O10: MODMUL has no exponent check, and its completion is one multiplication. -/
theorem modmulCompletes : Obligations.ModmulCompletes := by
  intro s rest hidle htwo haux
  exact ⟨exec_accepted (op := .modmul) hidle Bool.noConfusion ⟨htwo, haux⟩, step_complete_accepted (op := .modmul) rfl rest⟩

/-- Settles O11: the whole ladder gives the power and its count. -/
theorem modexpCompletes : Obligations.ModexpCompletes := by
  intro s rest hidle hexp htwo haux hlt
  refine ⟨exec_accepted (op := .modexp) hidle (fun _ => hexp) ⟨⟨htwo, haux⟩, hlt⟩, ?_⟩
  rw [← mulcnt_of_ladderLength hexp]
  exact step_complete_accepted (op := .modexp) (modexpResult_start hexp) rest

/-- Settles O12: VALIDATE is accepted without a precondition, and its completion runs the validator alone. -/
theorem validateCompletes : Obligations.ValidateCompletes := by
  intro s rest hidle
  exact ⟨exec_accepted (op := .validate) hidle Bool.noConfusion trivial, step_complete_accepted (op := .validate) rfl rest⟩

/-- Settles O13: VERIFY's ladder is MODEXP's, and the validator gets the power's bytes. -/
theorem verifyCompletes : Obligations.VerifyCompletes := by
  intro s rest hidle hexp htwo haux hlt
  refine ⟨exec_accepted (op := .verify) hidle (fun _ => hexp) ⟨⟨htwo, haux⟩, hlt⟩, ?_⟩
  rw [← mulcnt_of_ladderLength hexp]
  exact step_complete_accepted (op := .verify) (verifyResult_start s.build hexp) rest

/-- Settles O14: SRST's exec is the soft reset, whose fields are the reset values. -/
theorem srstResetsEverything : Obligations.SrstResetsEverything := fun _ => rfl

/-- Settles O15: the precondition of each command is the one the statement denies. -/
theorem preconditionViolationFaults : Obligations.PreconditionViolationFaults := by
  intro s hidle
  refine ⟨fun hpre => exec_preconditionViolated (op := .modmul) hidle Bool.noConfusion hpre, fun hexp hpre => ⟨?_, ?_⟩⟩
  · exact exec_preconditionViolated (op := .modexp) hidle (fun _ => hexp) hpre
  · exact exec_preconditionViolated (op := .verify) hidle (fun _ => hexp) hpre

/-- Settles O16: a command is dropped, rejected for its exponent, or started, and each writes STATUS, MULCNT or ENGINE
alone. -/
theorem commandFrame : Obligations.CommandFrame := by
  intro i s t hi h
  rcases exec_next_cases hi h with ⟨hrun, rfl⟩ | ⟨hidle, rfl⟩ | ⟨hidle, op, -, -, rfl⟩
  · exact ⟨rfl, ⟨rfl, rfl, rfl, rfl, rfl, rfl, rfl⟩, rfl, rfl, rfl, .inl rfl, fun _ => rfl⟩
  · exact ⟨rfl, ⟨rfl, rfl, rfl, rfl, rfl, rfl, rfl⟩, rfl, rfl, rfl, .inr ⟨rfl, rfl, hidle⟩, fun hrun => absurd hidle hrun⟩
  · exact ⟨rfl, ⟨rfl, rfl, rfl, rfl, rfl, rfl, rfl⟩, rfl, rfl, rfl, .inl rfl, fun hrun => absurd hidle hrun⟩

/-- Settles O34: RES after MODEXP holds the bytes that VERIFY gives to the validator. -/
theorem verifyIsModexpThenValidate : Obligations.VerifyIsModexpThenValidate := by
  intro s _ hidle hexp hpre
  have hmodexp := exec_accepted (op := .modexp) hidle (fun _ => hexp) hpre
  have hverify := exec_accepted (op := .verify) hidle (fun _ => hexp) hpre
  let t := completeTurn (acceptedState .modexp s)
  have hvalidate := exec_accepted (op := .validate) (s := { t with opa := t.res }) rfl Bool.noConfusion trivial
  refine ⟨_, _, _, _, hmodexp, hvalidate, rfl, hverify, ?_⟩
  simp only [t, completeTurn_accepted (op := .modexp) (modexpResult_start hexp),
    completeTurn_accepted (op := .verify) (verifyResult_start s.build hexp)]
  exact ⟨rfl, rfl, rfl⟩

end Sys2Proof.Machine
end

section
/-! PROOFS. Proofs/Completion.lean: what a completion does and leaves, and that the ladder's turns do not show in it
(30_encoding.md R65, R66; 10_state.md R31). -/
namespace Sys2Proof.Machine

@[simp] theorem finishJob_setEngine (x : JobResult) (s : State) (e : Engine) :
    finishJob x (s.setEngine e) = finishJob x s := by
  unfold finishJob writeResult
  cases x.value <;> rfl

/-- Exec(job) as the machine does it from acceptance is the table of R65. -/
theorem jobResult_eq_execR65 (b : Build) (job : Job) : jobResult b job ladderStart = execR65 b job := by
  have hloop := ladderFollowsTheLoop job
  unfold jobResult execR65
  rw [← hloop]
  cases job.op <;> rfl

/-- Settles O17: under the invariant the ladder's progress does not matter, and the whole job is R65's. -/
theorem completionPerformsTheJob : Obligations.CompletionPerformsTheJob := by
  intro s job l rest hinv hrun x t
  have hdone (a : List Turn) : completeTurn { s with agenda := a } = { t with agenda := a } := by
    rw [completeTurn_of_inv (s := { s with agenda := a }) (hinv.setAgenda a) hrun, jobResult_eq_execR65]
    simp only [t, x, finishJob, writeResult]
    cases (execR65 s.build job).value <;> rfl
  refine ⟨congrArg Host.Outcome.next (hdone rest), fun hempty => ?_⟩
  exact (step_quiet hempty).trans (congrArg Host.Outcome.next (hdone s.agenda))

/-- Settles O18: an idle engine's completion does nothing; a job's end writes the results, and RES only for a value. -/
theorem completionFrame : Obligations.CompletionFrame := by
  intro s t rest h
  obtain rfl : completeTurn { s with agenda := rest } = t := Host.Outcome.next.inj h
  obtain ⟨hidle, hsame⟩ | ⟨job, l, hrun, hdone⟩ := completeTurn_cases { s with agenda := rest }
  · have hnone (job : Job) (l : Ladder) : s.engine ≠ .run job l := fun hrun => Engine.noConfusion (hidle.symm.trans hrun)
    rw [hsame]
    exact ⟨rfl, ⟨rfl, rfl, rfl, rfl, rfl, rfl, rfl⟩, rfl, rfl, hidle, rfl, rfl, rfl,
      fun job l hrun => absurd hrun (hnone job l), fun _ => rfl⟩
  · obtain ⟨r, hnone, -, hfinish⟩ := finishJob_cases (jobResult s.build job l) { s with agenda := rest }
    rw [hdone, hfinish]
    refine ⟨rfl, ⟨rfl, rfl, rfl, rfl, rfl, rfl, rfl⟩, rfl, rfl, rfl, rfl, rfl, rfl, fun job' l' hrun' hop => ?_,
      fun hidle => Engine.noConfusion (hidle.symm.trans hrun)⟩
    obtain ⟨rfl, rfl⟩ := Engine.run.inj (hrun.symm.trans hrun')
    exact hnone (by rcases hop with hop | hop <;> simp only [jobResult, hop] <;> rfl)

/-- Settles O19: both completions end one job in one build, and a result that is no value leaves each RES. -/
theorem completionReadsOnlyTheJob : Obligations.CompletionReadsOnlyTheJob := by
  intro s t hbuild hengine hne
  obtain ⟨hidle, -⟩ | ⟨job, l, hrun, hs⟩ := completeTurn_cases s
  · exact absurd hidle hne
  · have ht := completeTurn_running (hengine.symm.trans hrun)
    rw [hs, ht, ← hbuild]
    refine ⟨rfl, rfl, ?_⟩
    obtain ⟨r, hnone, hsome, hfinish⟩ := finishJob_cases (jobResult s.build job l) s
    obtain ⟨r', hnone', hsome', hfinish'⟩ := finishJob_cases (jobResult s.build job l) t
    rw [hfinish, hfinish']
    cases hvalue : (jobResult s.build job l).value with
    | none => exact .inr ⟨hnone hvalue, hnone' hvalue⟩
    | some v => exact .inl ((hsome v hvalue).trans (hbuild ▸ (hsome' v hvalue).symm))

/-- A ladder turn looks at ENGINE alone. -/
theorem ladderTurn_setAgenda (s : State) (rest : List Turn) :
    ladderTurn (s.setAgenda rest) = (ladderTurn s).setAgenda rest := by
  unfold ladderTurn
  rw [State.setAgenda_engine]
  cases s.engine with
  | idle => rfl
  | run job l =>
    by_cases hleft : l.step < ladderLength job.e
    · simp only [if_pos hleft]
      cases job.op <;> rfl
    · simp only [if_neg hleft]
      cases job.op <;> rfl

theorem completeTurn_ladderTurn (s : State) : completeTurn (ladderTurn s) = completeTurn s := by
  obtain hsame | ⟨job, l, hrun, -, hleft, hstep⟩ := ladderTurn_cases s
  · rw [hsame]
  · rw [hstep, completeTurn_running hrun, completeTurn_running rfl, finishJob_setEngine, State.setEngine_build,
      jobResult_ladderStep _ _ _ hleft]

/-- Settles O20: a ladder turn does nothing or one step of the running job's ladder, which the completion would have done. -/
theorem ladderTurnIsHidden : Obligations.LadderTurnIsHidden := by
  intro s rest t
  have hstep : step { s with agenda := .ladder :: rest } = .next { t with agenda := rest } :=
    congrArg Host.Outcome.next (ladderTurn_setAgenda s rest)
  have hcomplete : completeTurn t = completeTurn s := completeTurn_ladderTurn s
  obtain hsame | ⟨job, l, hrun, -, -, hturn⟩ := ladderTurn_cases s
  · have ht : t = s := hsame
    exact ⟨hstep, by rw [ht], fun job l hrun => ⟨l, by rw [ht, hrun]⟩, fun _ => hsame, hcomplete⟩
  · refine ⟨hstep, ?_, fun job' l' hrun' => ?_, fun hidle => Engine.noConfusion (hidle.symm.trans hrun), hcomplete⟩
    · simp only [t, hturn]
      rfl
    · obtain ⟨rfl, rfl⟩ := Engine.run.inj (hrun.symm.trans hrun')
      exact ⟨_, congrArg State.engine hturn⟩

end Sys2Proof.Machine
end

section
/-! PROOFS. Proofs/Steps.lean: what a step can answer at all, and what keeps the results of an idle block (60_exceptions.md
sections 1 to 3 and 5, 20_memory.md section 6). -/
namespace Sys2Proof.Machine

/-- The one case in which the issue of a word answers no next state (60_exceptions.md R103). -/
structure PreconditionFault (w : Word) (s : State) (op : JobOp) : Prop where
  word : w = jobWord op
  idle : s.engine = .idle
  exponent : usesLadder op = true → LegalExponent s.exp
  violated : ¬ PreHolds s.build (snapshot op s)

/-- VALIDATE has no precondition to violate (42_validate.md R93). -/
theorem PreconditionFault.ne_validate {w : Word} {s : State} {op : JobOp} (h : PreconditionFault w s op) :
    op ≠ .validate := by
  rintro rfl
  exact h.violated trivial

theorem encode_eq_srst_or_jobWord (i : Instr) : encode i = 0x0000000F#32 ∨ ∃ op, encode i = jobWord op := by
  cases i with
  | srst => exact .inl rfl
  | modmul => exact .inr ⟨.modmul, rfl⟩
  | modexp => exact .inr ⟨.modexp, rfl⟩
  | validate => exact .inr ⟨.validate, rfl⟩
  | verify => exact .inr ⟨.verify, rfl⟩

/-- R105's outcomes are all there are: a next state, or the fault. -/
theorem issue_answers (w : Word) (s : State) :
    (∃ t, issue w s = .next t) ∨
    ∃ op, PreconditionFault w s op ∧ issue w s = .fault (.preconditionViolated op) := by
  obtain ⟨hsrst, hoverrun, hidle⟩ := firstOutcomeThatApplies s
  by_cases hw : w = 0x0000000F#32
  · exact .inl ⟨_, hw ▸ hsrst⟩
  by_cases hrun : s.engine ≠ .idle
  · exact .inl ⟨_, hoverrun w hw hrun⟩
  have hengine := not_ne_iff.1 hrun
  obtain ⟨hillegal, hexponent, hfault, haccept⟩ := hidle hengine
  cases hwf : wfWord w with
  | false => exact .inl ⟨_, hillegal w hwf⟩
  | true =>
    obtain ⟨i, rfl⟩ := exists_eq_encode_of_wfWord hwf
    obtain ⟨op, hop⟩ := (encode_eq_srst_or_jobWord i).resolve_left hw
    rw [hop]
    by_cases hexp : usesLadder op = true → LegalExponent s.exp
    · by_cases hpre : PreHolds s.build (snapshot op s)
      · exact .inl ⟨_, haccept op hexp hpre⟩
      · exact .inr ⟨op, ⟨rfl, hengine, hexp, hpre⟩, hfault op hexp hpre⟩
    · obtain ⟨huses, hbad⟩ := Classical.not_imp.1 hexp
      exact .inl ⟨_, hexponent op huses hbad⟩

/-- A turn answers a next state too, unless it is a CMD write that faults. -/
theorem takeTurn_answers (turn : Turn) (s : State) :
    (∃ t, takeTurn turn s = .next t) ∨
    ∃ w op, turn = .write 0x004#12 4 w ∧ PreconditionFault w s op ∧
      takeTurn turn s = .fault (.preconditionViolated op) := by
  cases turn with
  | read off size => exact .inl ⟨_, rfl⟩
  | ladder => exact .inl ⟨_, rfl⟩
  | complete => exact .inl ⟨_, rfl⟩
  | rst => exact .inl ⟨_, rfl⟩
  | write off size v =>
    rw [takeTurn]
    obtain ⟨-, hw⟩ | ⟨rfl, rfl, hw⟩ | ⟨-, hslot, hw⟩ := busWrite_cases off size v s
    · exact .inl ⟨_, hw⟩
    · rw [hw]
      obtain hnext | ⟨op, ⟨hword, hidle, hexp, hpre⟩, hfault⟩ := issue_answers v (s.setReply (.write .okay))
      · exact .inl hnext
      · exact .inr ⟨v, op, rfl, ⟨hword, hidle, hexp, hpre⟩, hfault⟩
    · obtain ⟨t, ht, -⟩ := writeSlot_cases v (s.setReply (.write .okay)) _ hslot
      exact .inl ⟨t, hw.trans ht⟩

/-- Settles O55: every other turn answers a next state, and so does an empty agenda. -/
theorem onlyPreconditionsFault : Obligations.OnlyPreconditionsFault := by
  intro s
  have hanswers : (∃ t, step s = .next t) ∨ ∃ (w : Word) (op : JobOp) (rest : List Turn),
      s.agenda = .write 0x004#12 4 w :: rest ∧ PreconditionFault w s op ∧
        step s = .fault (.preconditionViolated op) := by
    cases hagenda : s.agenda with
    | nil => exact .inl ⟨_, step_quiet hagenda⟩
    | cons turn rest =>
      rw [step_of_agenda hagenda]
      obtain hnext | ⟨w, op, rfl, ⟨hword, hidle, hexp, hpre⟩, hfault⟩ := takeTurn_answers turn (s.setAgenda rest)
      · exact .inl hnext
      · exact .inr ⟨w, op, rest, rfl, ⟨hword, hidle, hexp, hpre⟩, hfault⟩
  obtain ⟨t, hnext⟩ | ⟨w, op, rest, hagenda, hcase, hfault⟩ := hanswers
  · rw [hnext]
    exact ⟨nofun, nofun⟩
  · rw [hfault]
    refine ⟨nofun, fun f hf => ⟨op, rest, ?_⟩⟩
    exact ⟨hcase.word ▸ hagenda, hcase.idle, hcase.exponent, hcase.violated, (Host.Outcome.fault.inj hf).symm,
      hcase.ne_validate⟩

/-- Settles O53: the engine of an idle block has nothing to complete. -/
theorem idleBlockKeepsItsState : Obligations.IdleBlockKeepsItsState := by
  intro s hidle hempty
  rw [step_quiet hempty, completeTurn_idle hidle]

theorem ladderTurn_idle {s : State} (h : s.engine = .idle) : ladderTurn s = s := by simp only [ladderTurn, h]

/-- A read gives the host some answer and changes nothing else (20_memory.md R45). -/
theorem busRead_eq_setReply (off : Offset) (size : Nat) (s : State) :
    ∃ data resp, busRead off size s = s.setReply (.read data resp) := by
  unfold busRead
  split
  · exact ⟨_, _, rfl⟩
  · exact ⟨_, _, rfl⟩

/-- Settles O37: the read's answer is the only field of the state it writes. -/
theorem readsHaveNoSideEffect : Obligations.ReadsHaveNoSideEffect := by
  intro s rest off size
  obtain ⟨data, resp, hread⟩ := busRead_eq_setReply off size { s with agenda := rest }
  exact ⟨data, resp, congrArg Host.Outcome.next hread⟩

/-- Without a command or a reset an idle block's turns are reads, plain writes and engine turns that do nothing. -/
theorem takeTurn_keeps_results {s t : State} {turn : Turn} (hidle : s.engine = .idle) (hrst : turn ≠ .rst)
    (hcmd : ∀ v, turn ≠ .write 0x004#12 4 v) (h : takeTurn turn s = .next t) :
    t.res = s.res ∧ t.mulcnt = s.mulcnt ∧ t.status.verdict = s.status.verdict ∧ t.engine = .idle := by
  cases turn with
  | read off size =>
    obtain ⟨data, resp, hread⟩ := busRead_eq_setReply off size s
    obtain rfl : s.setReply (.read data resp) = t := hread ▸ Host.Outcome.next.inj h
    exact ⟨rfl, rfl, rfl, hidle⟩
  | write off size v =>
    obtain hplain | ⟨rfl, rfl, -⟩ := busWrite_plain_or_issue h
    · obtain ⟨u, hstatus⟩ := hplain.status
      exact ⟨hplain.res, hplain.mulcnt, hstatus ▸ rfl, hplain.engine.trans hidle⟩
    · exact absurd rfl (hcmd v)
  | ladder =>
    obtain rfl : s = t := ladderTurn_idle hidle ▸ Host.Outcome.next.inj h
    exact ⟨rfl, rfl, rfl, hidle⟩
  | complete =>
    obtain rfl : s = t := completeTurn_idle hidle ▸ Host.Outcome.next.inj h
    exact ⟨rfl, rfl, rfl, hidle⟩
  | rst => exact absurd rfl hrst

/-- Settles O54: the step takes the turn, and its agenda is no result. -/
theorem resultsStayUntilTheNextCommand : Obligations.ResultsStayUntilTheNextCommand := by
  intro s t turn rest hidle hrst hcmd h
  exact takeTurn_keeps_results (s := { s with agenda := rest }) hidle hrst hcmd h

/-- A W1C write of DONE drops the interrupt (60_exceptions.md R106). -/
theorem irq_w1cStatus {v : Word} (s : State) (hv : v.getLsbD 1 = true) :
    irq (s.setStatus (w1cStatus v s.status)) = false := by
  simp [irq, w1cStatus, hv]

/-- A job's end raises DONE, so the interrupt is IE. -/
theorem irq_finishJob (x : JobResult) (s : State) : irq (finishJob x s) = s.ie := by
  obtain ⟨r, -, -, hfinish⟩ := finishJob_cases x s
  rw [hfinish]
  rfl

/-- Settles O51: each event's value of DONE, with IE as it was or reset. -/
theorem interruptFollowsDone : Obligations.InterruptFollowsDone := by
  intro s
  refine ⟨rfl, fun code => rfl, fun job l hrun => ?_, rfl, rfl, rfl, fun v => irq_w1cStatus s⟩
  rw [completeTurn_running hrun, irq_finishJob]

end Sys2Proof.Machine
end

section
/-! PROOFS. Proofs/Sensitivity.lean: the validator ties every byte of the message and the whole digest (42_validate.md R89,
R93; 43_verify.md R98). -/
namespace Sys2Proof.Machine

/-- Settles O31: both arrays would be the one encoded message, and they differ at index i. -/
theorem changedByteIsRejected : Obligations.ChangedByteIsRejected := by
  intro b p d i x hp hd hi hvalid hne
  refine Bool.eq_false_iff.2 fun hchanged => hne ?_
  have hlen : (p.set i x).length = b.numBytes := by rw [List.length_set, hp]
  have hp' := (validate_iff_eq_encodedMessage hp hd).1 hvalid
  have hset := (validate_iff_eq_encodedMessage hlen hd).1 hchanged
  rw [hp', ← hset, List.getElem?_set_self (by omega)]

/-- Settles O32: step 1 reads every byte of the digest off the message. -/
theorem oneDigestPerMessage : Obligations.OneDigestPerMessage := by
  intro b p d d' hd hd' hvalid hvalid'
  obtain ⟨hdigest, -⟩ := (validate_iff_checks _ _ _).1 hvalid
  obtain ⟨hdigest', -⟩ := (validate_iff_checks _ _ _).1 hvalid'
  refine List.ext_getElem (hd.trans hd'.symm) fun i hi hi' => ?_
  have hbyte := (checkDigest_iff p d).1 hdigest i (by omega)
  have hbyte' := (checkDigest_iff p d').1 hdigest' i (by omega)
  rw [List.getD_eq_getElem d 0 hi] at hbyte
  rw [List.getD_eq_getElem d' 0 hi'] at hbyte'
  exact Option.some.inj (hbyte.symm.trans hbyte')

/-- Settles O29: the layout ends two bytes after the padding string, where the message ends too. -/
theorem lastPaddingArmIsDead : Obligations.LastPaddingArmIsDead := by
  intro b i _ hi
  have hfill := psLen_add b
  omega

end Sys2Proof.Machine
end

section
/-! PROOFS. Proofs/Registers.lean: the accesses of every register, and reading back what was written (20_memory.md R36, R45,
R46). -/
namespace Sys2Proof.Machine

@[simp] theorem readSlot_setAgenda (s : State) (x : List Turn) (slot : Slot) :
    readSlot (s.setAgenda x) slot = readSlot s slot := by cases slot <;> rfl

section Access
variable {s : State} {off : Offset} {slot : Slot} (haligned : off.toNat % 4 = 0) (hslot : slotOf s.build off.toNat = slot)
include haligned hslot

/-- The read of a slot answers its word. -/
theorem step_read_slot (rest : List Turn) :
    step { s with agenda := .read off 4 :: rest } =
      .next { s with agenda := rest, reply := .read (readSlot s slot) .okay } := by
  rw [step_turn, takeTurn, busRead_admitted _ haligned, hslot, ← readSlot_setAgenda s rest slot]
  rfl

/-- The write of a slot is answered OKAY before the slot takes it. -/
theorem step_write_slot (rest : List Turn) (v : Word) :
    step { s with agenda := .write off 4 v :: rest } =
      writeSlot v { s with agenda := rest, reply := .write .okay } slot := by
  rw [step_turn, takeTurn, busWrite_admitted v _ haligned, hslot]
  rfl

/-- A slot that takes the word whole gives it back at the next read. -/
theorem write_then_read {t : State} {v : Word} {rest : List Turn}
    (hwrite : writeSlot v { s with agenda := .read off 4 :: rest, reply := .write .okay } slot = .next t)
    (hcmd : slot ≠ .cmd) (hread : readSlot t slot = v) :
    ∃ t u : State, step { s with agenda := .write off 4 v :: .read off 4 :: rest } = .next t ∧
      step t = .next u ∧ u.reply = .read v .okay ∧ u.agenda = rest := by
  have hplain := writeSlot_plain hcmd hwrite
  have hagenda : t.agenda = .read off 4 :: rest := hplain.agenda
  have hslot' : slotOf t.build off.toNat = slot := by rw [hplain.build, hslot]
  have hstep := step_read_slot haligned hslot' rest
  rw [hread, ← hagenda] at hstep
  exact ⟨t, _, (step_write_slot haligned hslot _ v).trans hwrite, hstep, rfl, rfl⟩

end Access

/-- Settles O38: each control offset is its own slot. -/
theorem controlRegistersRead : Obligations.ControlRegistersRead := by
  intro s rest answers
  exact ⟨rfl, rfl, rfl, rfl, rfl, rfl⟩

/-- Settles O39: the register map leads each offset to its word. -/
theorem dataRegistersRead : Obligations.DataRegistersRead := by
  intro s rest i off answers
  refine ⟨fun hi => ⟨fun h => ?mod, fun h => ?opa, fun h => ?opb, fun h => ?res⟩, fun hi h => ?digest, fun hi h => ?aux⟩
  case mod => exact step_read_slot (by omega) (h ▸ slotOf_mod hi) rest
  case opa => exact step_read_slot (by omega) (h ▸ slotOf_opa hi) rest
  case opb => exact step_read_slot (by omega) (h ▸ slotOf_opb hi) rest
  case res => exact step_read_slot (by omega) (h ▸ slotOf_res hi) rest
  case digest => exact step_read_slot (by omega) (h ▸ slotOf_digest hi) rest
  case aux => exact step_read_slot (by omega) (h ▸ slotOf_aux hi) rest

/-- A W1C write with each flag's two cases written out. -/
theorem w1cStatus_eq_ite (v : Word) (st : Status) :
    w1cStatus v st =
      { st with
        done := if v.getLsbD 1 then false else st.done
        ovr := if v.getLsbD 8 then false else st.ovr } := by
  unfold w1cStatus
  cases v.getLsbD 1 <;> cases v.getLsbD 8 <;> simp

/-- Settles O40: each control offset is its own slot, and STATUS takes the word as W1C. -/
theorem controlRegisterWrites : Obligations.ControlRegisterWrites := by
  intro s rest v writes
  refine ⟨rfl, rfl, rfl, rfl, ?_⟩
  simp only [writes, ← w1cStatus_eq_ite]
  rfl

/-- Settles O41: the register map leads each offset to its word, and the slot of a word of RES takes none. -/
theorem dataRegisterWrites : Obligations.DataRegisterWrites := by
  intro s rest i off v writes
  refine ⟨fun hi => ⟨fun h => ?mod, fun h => ?opa, fun h => ?opb, fun h => ?res⟩, fun hi h => ?digest, fun hi h => ?aux⟩
  case mod => exact step_write_slot (by omega) (h ▸ slotOf_mod hi) rest v
  case opa => exact step_write_slot (by omega) (h ▸ slotOf_opa hi) rest v
  case opb => exact step_write_slot (by omega) (h ▸ slotOf_opb hi) rest v
  case res => exact step_write_slot (by omega) (h ▸ slotOf_res hi) rest v
  case digest => exact step_write_slot (by omega) (h ▸ slotOf_digest hi) rest v
  case aux => exact step_write_slot (by omega) (h ▸ slotOf_aux hi) rest v

/-- A word of the map lies whole inside its big register. -/
theorem word_lt_numBytes {b : Build} {i : Nat} (h : i < b.nwords) : 4 * i + 3 < b.numBytes := by
  rcases b.nwords_cases with hb | hb <;> omega

/-- An aligned offset in a range of whole words is one word's. -/
theorem exists_word_of_aligned {off base n : Nat} (hoff : off % 4 = 0) (hbase : base % 4 = 0) (hlow : base ≤ off)
    (hhigh : off < base + 4 * n) : ∃ i < n, off = base + 4 * i := ⟨(off - base) / 4, by omega, by omega⟩

/-- Settles O43: each of these slots takes the word whole, because the invariant gives the registers their lengths. -/
theorem writeThenReadBack : Obligations.WriteThenReadBack := by
  intro s rest off v hinv haligned hoff
  obtain ⟨hmod, hopa, hopb, -, hdigest, haux⟩ := hinv.sizes
  obtain h | ⟨hlow, hhigh⟩ | ⟨hlow, hhigh⟩ | ⟨hlow, hhigh⟩ | ⟨hlow, hhigh⟩ | ⟨hlow, hhigh⟩ := hoff
  · exact write_then_read (slot := .exp) haligned (by rw [h]; rfl) rfl Slot.noConfusion rfl
  · obtain ⟨i, hi, h⟩ := exists_word_of_aligned haligned rfl hlow hhigh
    refine write_then_read haligned (h ▸ slotOf_mod hi) rfl Slot.noConfusion ?_
    exact wordAt_setWordAt _ _ _ (hmod ▸ word_lt_numBytes hi)
  · obtain ⟨i, hi, h⟩ := exists_word_of_aligned haligned rfl hlow hhigh
    refine write_then_read haligned (h ▸ slotOf_opa hi) rfl Slot.noConfusion ?_
    exact wordAt_setWordAt _ _ _ (hopa ▸ word_lt_numBytes hi)
  · obtain ⟨i, hi, h⟩ := exists_word_of_aligned haligned rfl hlow hhigh
    refine write_then_read haligned (h ▸ slotOf_opb hi) rfl Slot.noConfusion ?_
    exact wordAt_setWordAt _ _ _ (hopb ▸ word_lt_numBytes hi)
  · obtain ⟨k, hk, h⟩ := exists_word_of_aligned (n := 8) haligned rfl hlow hhigh
    refine write_then_read haligned (h ▸ slotOf_digest hk) rfl Slot.noConfusion ?_
    exact wordAt_setWordAt _ _ _ (by rw [hdigest]; omega)
  · obtain ⟨k, hk, h⟩ := exists_word_of_aligned haligned rfl hlow hhigh
    refine write_then_read haligned (h ▸ slotOf_aux hk) rfl Slot.noConfusion ?_
    have hlt : k < (s.aux.set k v).length := by rw [List.length_set, haux]; exact hk
    exact (List.getD_eq_getElem _ 0 hlt).trans (List.getElem_set_self hlt)

end Sys2Proof.Machine
end

section
/-! PROOFS. Proofs/Words.lean: byte lanes, the number of a register's words, writing a number word by word, and the bits of
STATUS (20_memory.md R37, R38; 30_encoding.md R61; 10_state.md R23). -/
namespace Sys2Proof.Machine

/-- A write leaves every byte outside its word (20_memory.md R37). -/
theorem setWordAt_getElem?_other (reg : List Byte) (i : Nat) (v : Word) {k : Nat} (h : k < 4 * i ∨ 4 * i + 4 ≤ k) :
    (setWordAt reg i v)[k]? = reg[k]? := by
  simp only [setWordAt]
  repeat rw [List.getElem?_set_ne (by omega)]

/-- A write sets byte j of its word to byte j of the data (20_memory.md R37). -/
theorem setWordAt_getElem?_lane (reg : List Byte) (i : Nat) (v : Word) {j : Nat} (hj : j < 4)
    (hlen : 4 * i + j < reg.length) : (setWordAt reg i v)[4 * i + j]? = some (byteOfWord v j) := by
  have hcases : j = 0 ∨ j = 1 ∨ j = 2 ∨ j = 3 := by omega
  rcases hcases with rfl | rfl | rfl | rfl
  · rw [Nat.add_zero] at hlen ⊢
    simp [setWordAt, hlen]
  all_goals simp [setWordAt, hlen]

/-- Settles O45: the four lanes read, and the five facts of a write. -/
theorem byteLanes : Obligations.ByteLanes := by
  intro reg i v
  refine ⟨wordOfBytes_toNat _ _ _ _, setWordAt_length reg i v, fun j hj hlen => ?_,
    fun k => setWordAt_getElem?_other reg i v⟩
  rw [setWordAt_getElem?_lane reg i v hj hlen, byteOfWord_eq]

/-! The number of a register, four bytes at a time. -/

theorem wordAt_cons_zero (b0 b1 b2 b3 : Byte) (bs : List Byte) :
    wordAt (b0 :: b1 :: b2 :: b3 :: bs) 0 = wordOfBytes b0 b1 b2 b3 := rfl

theorem wordAt_cons_succ (b0 b1 b2 b3 : Byte) (bs : List Byte) (i : Nat) :
    wordAt (b0 :: b1 :: b2 :: b3 :: bs) (i + 1) = wordAt bs i := rfl

/-- A register of n words is the sum of its words, the lowest first (20_memory.md R38). -/
theorem intLE_eq_sum_words (n : Nat) (reg : List Byte) (hlen : reg.length = 4 * n) :
    intLE reg = ((List.range n).map fun i => (wordAt reg i).toNat * 2 ^ (32 * i)).sum := by
  induction n generalizing reg with
  | zero =>
    obtain rfl := List.eq_nil_of_length_eq_zero hlen
    rfl
  | succ n ih =>
    match reg, hlen with
    | b0 :: b1 :: b2 :: b3 :: bs, hlen =>
      have hbs : bs.length = 4 * n := by
        simp only [List.length_cons] at hlen
        omega
      have hweight (i : Nat) : (wordAt bs i).toNat * 2 ^ (32 * (i + 1)) = 2 ^ 32 * ((wordAt bs i).toNat * 2 ^ (32 * i)) := by
        rw [Nat.mul_succ, Nat.pow_add]
        ring
      simp only [List.range_succ_eq_map, List.map_cons, List.map_map, List.sum_cons, Function.comp_def, wordAt_cons_zero,
        wordAt_cons_succ, hweight, List.sum_map_mul_left, ← ih bs hbs, wordOfBytes_toNat, intLE_cons]
      ring

theorem numBytes_eq_words (b : Build) : b.numBytes = 4 * b.nwords := by
  rcases b.nwords_cases with h | h <;> omega

/-- Settles O47: a register of NUMBYTES bytes has NWORDS whole words. -/
theorem bigIntegerOfWords : Obligations.BigIntegerOfWords := by
  intro b reg hlen
  exact intLE_eq_sum_words b.nwords reg (hlen.trans (numBytes_eq_words b))

/-! Writing a number word by word. -/

/-- Byte j of word i of a number is the number's byte 4i + j. -/
theorem byteOfWord_wordOfNat (v i : Nat) {j : Nat} (hj : j < 4) :
    byteOfWord (wordOfNat v i) j = BitVec.ofNat 8 (v / 256 ^ (4 * i + j)) := by
  apply BitVec.eq_of_getLsbD_eq
  intro k hk
  have hbit : 8 * j + k < 32 := by omega
  have hpow : 256 ^ (4 * i + j) = 2 ^ (8 * (4 * i + j)) := (Nat.pow_mul 2 8 (4 * i + j)).symm
  have hindex : 32 * i + (8 * j + k) = 8 * (4 * i + j) + k := by omega
  simp only [byteOfWord, wordOfNat, hpow, ← Nat.shiftRight_eq_div_pow, BitVec.getLsbD_extractLsb', BitVec.getLsbD_ofNat,
    Nat.testBit_shiftRight, hk, hbit, hindex, decide_true, Bool.true_and]

theorem foldl_setWordAt_length (f : Nat → Word) (is : List Nat) (reg : List Byte) :
    (is.foldl (fun r i => setWordAt r i (f i)) reg).length = reg.length := by
  induction is generalizing reg with
  | nil => rfl
  | cons i is ih => rw [List.foldl_cons, ih, setWordAt_length]

/-- After the first n words the bytes below 4n are the number's, and those above are as before. -/
theorem foldl_setWordAt_getElem? (reg : List Byte) (v n : Nat) (hlen : 4 * n ≤ reg.length) (k : Nat) :
    ((List.range n).foldl (fun r i => setWordAt r i (wordOfNat v i)) reg)[k]? =
      if k < 4 * n then some (BitVec.ofNat 8 (v / 256 ^ k)) else reg[k]? := by
  induction n with
  | zero => rfl
  | succ n ih =>
    rw [List.range_succ, List.foldl_append, List.foldl_cons, List.foldl_nil]
    by_cases hlane : 4 * n ≤ k ∧ k < 4 * n + 4
    · obtain ⟨hlow, hhigh⟩ := hlane
      obtain ⟨j, rfl⟩ := Nat.exists_eq_add_of_le hlow
      have hj : j < 4 := by omega
      rw [setWordAt_getElem?_lane _ _ _ hj (by rw [foldl_setWordAt_length (wordOfNat v)]; omega),
        byteOfWord_wordOfNat _ _ hj, if_pos (by omega)]
    · have hsame : k < 4 * (n + 1) ↔ k < 4 * n := by omega
      simp only [setWordAt_getElem?_other _ n _ (k := k) (by omega), ih (by omega), hsame]

/-- Settles O48: NWORDS words reach every byte of the register. -/
theorem everyWordWrittenGivesTheNumber : Obligations.EveryWordWrittenGivesTheNumber := by
  intro b reg v hlen _
  have hwords := numBytes_eq_words b
  refine List.ext_getElem? fun k => ?_
  rw [foldl_setWordAt_getElem? reg v b.nwords (by omega) k]
  by_cases hk : k < b.numBytes
  · rw [if_pos (by omega), leBytes_getElem? _ _ _ hk]
  · rw [if_neg (by omega), List.getElem?_eq_none (by omega), List.getElem?_eq_none (by rw [leBytes_length]; omega)]

/-! STATUS as a number: its fields do not overlap. -/

/-- A flag moved to bit k of a word. -/
theorem flagWord_shiftLeft_toNat (f : Bool) {k : Nat} (hk : k < 32) : (flagWord f <<< k).toNat = f.toNat * 2 ^ k := by
  have hlt : 2 ^ k < 4294967296 := Nat.pow_lt_pow_right (by decide) hk
  cases f <;> simp [flagWord, Nat.shiftLeft_eq, Nat.mod_eq_of_lt, hlt]

theorem flagWord_toNat (f : Bool) : (flagWord f).toNat = f.toNat := by cases f <;> rfl

/-- ERRCODE fits its four bits (60_exceptions.md R100). -/
theorem errCodeNat_lt (code : ErrCode) : errCodeNat code < 3 := by cases code <;> decide

theorem errCode_shiftLeft_toNat (code : ErrCode) :
    (BitVec.ofNat 32 (errCodeNat code) <<< 4).toNat = errCodeNat code * 2 ^ 4 := by cases code <;> decide

/-- Settles O49: each field lies above the ones before it, so that the ors are additions. -/
theorem statusWordLayout : Obligations.StatusWordLayout := by
  rintro ⟨busy, done, verdict, err, code, ovr⟩
  have hscale (f : Bool) (c : Nat) : (if f then c else 0) = f.toNat * c := by cases f <;> simp
  have hbusy := busy.toNat_lt
  have hdone := done.toNat_lt
  have hverdict := verdict.toNat_lt
  have herr := err.toNat_lt
  have hcode := errCodeNat_lt code
  simp only [statusWord, BitVec.toNat_or, flagWord_toNat, flagWord_shiftLeft_toNat _ (by decide : 1 < 32),
    flagWord_shiftLeft_toNat _ (by decide : 2 < 32), flagWord_shiftLeft_toNat _ (by decide : 3 < 32),
    flagWord_shiftLeft_toNat _ (by decide : 8 < 32), errCode_shiftLeft_toNat, hscale]
  rw [or_shifted _ _ 1 hbusy, or_shifted _ _ 2 (by omega), or_shifted _ _ 3 (by omega), or_shifted _ _ 4 (by omega),
    or_shifted _ _ 8 (by omega)]
  change _ = _ + 16 * errCodeNat code + _
  omega

end Sys2Proof.Machine
end
